-- ==== Sys2Proof/Word.lean ====
section
/-! DEFINITION. The word types of TONEGEN: the widths that 00_scope.md R5 and 30_encoding.md R60 fix. -/

namespace Sys2Proof

/-- One byte of a sample buffer (20_memory.md R40: "byte-addressed with 8-bit bytes"). -/
abbrev Byte := BitVec 8

/-- A u32 or s32 register (00_scope.md R5: `POS_W`, `PERIOD_W`, `SOFAR_W`, `BUFSZ_W`). -/
abbrev Word := BitVec 32

/-- The volume register (`AMP_W`). -/
abbrev Amp := BitVec 10

/-- The microsecond down-counter (`PLAYOUT_W`). -/
abbrev Micros := BitVec 42

/-- One 16-bit sample slot (`SAMPLE_W`). -/
abbrev Sample := BitVec 16

/-- One command word (`CMD_W`, R60). -/
abbrev CmdWord := BitVec 72

/-- The low byte of a sample, `s[7:0]` (R42). -/
def Sample.lowByte (v : Sample) : Byte := v.extractLsb' 0 8

/-- The high byte of a sample, `s[15:8]` (R42). -/
def Sample.highByte (v : Sample) : Byte := v.extractLsb' 8 8

end Sys2Proof
end

