-- ==== Sys2Proof/Syntax.lean ====
section
/-! DEFINITION. The operations of TONEGEN: one constructor per row of spec/opcode_table.json
(30_encoding.md R61), their operands as the integers of R62. -/

namespace Sys2Proof

/-- The five host commands and the generator's TICK (R61, R69). Operands are mathematical integers (00_scope.md
R7); `WellFormed` says which of them a command word can carry. -/
inductive Instr where
  /-- SETF `hz` (R81): set the frequency, play indefinitely. -/
  | setf (hz : Nat)
  /-- SETFD `hz, ms` (R80): set the frequency with a playout duration. -/
  | setfd (hz ms : Nat)
  /-- SETV `level` (R82): set the volume; the 32 bits of `arg0` read as unsigned (R62). -/
  | setv (level : Nat)
  /-- SETB `bytes` (R83): set the buffer size; `signed_32(arg0)` (R62). -/
  | setb (bytes : Int)
  /-- PULL (R140): return the committed buffer. -/
  | pull
  /-- TICK (R100): one activation of `sample_en`. -/
  | tick
  deriving DecidableEq, Repr

end Sys2Proof
end

