-- ==== Sys2Proof/WellFormed.lean ====
section
/-! DEFINITION. Which operations a command word can carry: the operand ranges of 30_encoding.md R62. -/

namespace Sys2Proof

/-- `v` is a u32 (00_scope.md R7: 0 .. 2^32-1). -/
abbrev FitsU32 (v : Nat) : Prop := v < 2 ^ 32

/-- `v` is an s32 (R7: -2^31 .. 2^31-1). -/
abbrev FitsS32 (v : Int) : Prop := -(2 ^ 31) ≤ v ∧ v < 2 ^ 31

/-- The operand checks of R62, one arm per operation. -/
def Instr.wellFormed : Instr → Bool
  | .setf hz => decide (FitsU32 hz)
  | .setfd hz ms => decide (FitsU32 hz) && decide (FitsU32 ms)
  | .setv level => decide (FitsU32 level)
  | .setb bytes => decide (FitsS32 bytes)
  | .pull => true
  | .tick => true

/-- Well-formedness as a proposition, decidable because it is a Bool. -/
abbrev Instr.WellFormed (i : Instr) : Prop := i.wellFormed = true

end Sys2Proof
end

