-- ==== Sys2Proof/Decode.lean ====
section
/-! DEFINITION. The decoder and the encoder: the command word of 30_encoding.md R60, the opcode map of R61, the
ignored fields of R65, the reserved words of R66 and the strobe of R69. -/

namespace Sys2Proof

/-- What the machine can be given to perform: a command word on the command port (R60), or the level of the
`sample_en` strobe (R69; format EV of spec/opcode_table.json). -/
inductive Fetched where
  | command (w : CmdWord)
  | strobe (en : BitVec 1)
  deriving DecidableEq, Repr

/-- The decoder's answer. A reserved word is rejected by name, with its `op` byte (R66). -/
inductive Decoded where
  | instr (i : Instr)
  /-- `op` is 0x00 or 0x06 .. 0xFF: no operation (R66). -/
  | reserved (op : BitVec 8)
  /-- `sample_en` is 0: the strobe is not active, no operation is asked for (R69). -/
  | inactive
  deriving DecidableEq, Repr

/-- `op`, bits 71:64 of a command word (R60). -/
def opField (w : CmdWord) : BitVec 8 := w.extractLsb' 64 8

/-- `arg1`, bits 63:32 (R60). -/
def arg1Field (w : CmdWord) : Word := w.extractLsb' 32 32

/-- `arg0`, bits 31:0 (R60). -/
def arg0Field (w : CmdWord) : Word := w.extractLsb' 0 32

/-- The opcode map (R61). -/
def opSetf : BitVec 8 := 0x01#8
def opSetfd : BitVec 8 := 0x02#8
def opSetv : BitVec 8 := 0x03#8
def opSetb : BitVec 8 := 0x04#8
def opPull : BitVec 8 := 0x05#8

/-- Decoding of a command word (R61, R65, R66): the `op` byte alone selects the operation; a field that R61
calls ignored is not looked at. -/
def decodeCommand (w : CmdWord) : Decoded :=
  if opField w = opSetf then .instr (.setf (arg0Field w).toNat)
  else if opField w = opSetfd then .instr (.setfd (arg0Field w).toNat (arg1Field w).toNat)
  else if opField w = opSetv then .instr (.setv (arg0Field w).toNat)
  else if opField w = opSetb then .instr (.setb (arg0Field w).toInt)
  else if opField w = opPull then .instr .pull
  else .reserved (opField w)

/-- The decoder, total on everything the machine can be given. -/
def decode : Fetched → Decoded
  | .command w => decodeCommand w
  | .strobe en => if en = 1#1 then .instr .tick else .inactive

/-- A command word from its three fields (R60). -/
def commandWord (op : BitVec 8) (arg1 arg0 : Word) : CmdWord := op ++ arg1 ++ arg0

/-- The encoder (R60, R61, R70): ignored fields are zero (R65), a negative operand is its two's complement (R70). -/
def encode : Instr → Fetched
  | .setf hz => .command (commandWord opSetf 0#32 (BitVec.ofNat 32 hz))
  | .setfd hz ms => .command (commandWord opSetfd (BitVec.ofNat 32 ms) (BitVec.ofNat 32 hz))
  | .setv level => .command (commandWord opSetv 0#32 (BitVec.ofNat 32 level))
  | .setb bytes => .command (commandWord opSetb 0#32 (BitVec.ofInt 32 bytes))
  | .pull => .command (commandWord opPull 0#32 0#32)
  | .tick => .strobe 1#1

/-- An instruction given as a number whose bits are numbered as spec/opcode_table.json numbers them: a row of
format EV is the one bit of `sample_en` (in one byte), every other row is the whole 72-bit command word (log 13). -/
def tableWord (nbits w : Nat) : Fetched :=
  if nbits ≤ 8 then .strobe (BitVec.ofNat 1 w) else .command (BitVec.ofNat 72 w)

/-- The instruction the decoder reads from a row's bits (none where it refuses). -/
def decodeTableWord (nbits w : Nat) : Option Instr :=
  match decode (tableWord nbits w) with
  | .instr i => some i
  | .reserved _ => none
  | .inactive => none

end Sys2Proof
end

