-- ==== Sys2Proof/Config.lean ====
section
/-! DEFINITION. What an implementation fixes (the OPEN parameters of 00_scope.md R5) and the free values:
what the spec leaves open is an opaque constant here, of which no proof can know a value. -/

namespace Sys2Proof

/-- `ARB_ORDER` (00_scope.md R5, 20_memory.md R48): which of a command and a TICK presented at the same
instant is performed first. -/
inductive ArbOrder where
  | either
  | cmdFirst
  | tickFirst
  deriving DecidableEq, Repr

/-- The build-time parameters that the spec makes arguments of a model (00_scope.md R5). They stand in the
machine's state record so that every statement about all states is about all parameters; no step writes them. -/
structure Config where
  /-- `BUFSZ_DEFAULT`, in bytes. -/
  bufszDefault : Nat
  /-- `BUF_MAX_BYTES`. -/
  bufMaxBytes : Nat
  /-- `ARB_ORDER`. -/
  arbOrder : ArbOrder
  deriving DecidableEq, Repr

/-- The parameters of `State.reset`. DESIGN CHOICE (log 1, log 3): the two sizes are those of the spec's own
test vectors (95_test_vectors.md), the order is the one R5 recommends. -/
def Config.default : Config where
  bufszDefault := 16
  bufMaxBytes := 65536
  arbOrder := .either

/-- The `sample_rate` strap of `State.reset`, in Hz. DESIGN CHOICE (log 2): the rate of most of the spec's
test vectors. -/
def Config.defaultStrap : Word := 16000#32

/-- FREE VALUE (log 3): with `ARB_ORDER = either`, whether the TICK goes first at the `n`-th simultaneous
presentation (R48: "both orders are admitted and a claim must hold for both"). -/
opaque Config.freeTickFirst : Nat → Bool

/-- FREE VALUE (log 4): the byte at an offset that nothing has written, in the `n`-th buffer (R51, U5: "any
value"). -/
opaque Config.freeByte : Nat → Nat → Byte

end Sys2Proof
end

