-- ==== Sys2Proof/Machine/Operands.lean ====
section
/-! DEFINITION. The operand conversions (30_encoding.md R62 to R64), the sample period (10_state.md R18) and the
legal buffer sizes (20_memory.md R43): arithmetic on numbers, no state. -/

namespace Sys2Proof.Machine

/-- `10^9 div SAMPLE_RATE`, truncated (R18); 0 above 10^9 Hz (log 9). -/
def samplePeriodOf (rate : Word) : Word := BitVec.ofNat 32 (10 ^ 9 / rate.toNat)

/-- `HzToPeriodNs` (R63): the nearest whole number of nanoseconds, a tie upward; 0 Hz is silence. -/
def hzToPeriodNs (hz : Nat) : Nat := if hz = 0 then 0 else (2 * 10 ^ 9 + hz) / (2 * hz)

/-- The duration operand in microseconds (R64). -/
def msToUs (ms : Nat) : Nat := 1000 * ms

/-- SETV's unsigned test on `arg0` (R82). -/
abbrev LevelAccepted (level : Nat) : Prop := level ≤ 1023

/-- `LegalSize(n)` for a signed `n` (R43). -/
abbrev LegalSize (bufMaxBytes : Nat) (n : Int) : Prop := 2 ≤ n ∧ n % 2 = 0 ∧ n ≤ bufMaxBytes

end Sys2Proof.Machine
end

