-- ==== Sys2Proof/Machine/State.lean ====
section
/-! DEFINITION. The machine's state: the registers of 10_state.md R10, the build parameters, and the model's own
record of its ports; the reasons a step can stop; the state after reset (R28). -/

namespace Sys2Proof.Machine

/-- A sample buffer (20_memory.md R40): a list of (offset, byte) pairs. An offset that is not listed holds no
defined value (R51). -/
abbrev Memory := List Host.Cell

/-- The canonical form of a buffer: offsets strictly rising. No entry can equal what an unlisted offset reads as,
since that is no value at all. -/
abbrev Memory.wf (m : Memory) : Prop := m.Pairwise (fun c d => c.1 < d.1)

/-- What the input ports present at one instant (30_encoding.md R72). -/
structure PortInput where
  /-- `rst`. -/
  rst : Bool := false
  /-- The `sample_rate` strap, read at reset only (R172). -/
  sampleRate : Word := 0#32
  /-- `sample_en`. -/
  sampleEn : Bool := false
  /-- `cmd_word` where `cmd_valid` is 1. -/
  cmd : Option CmdWord := none
  deriving DecidableEq, Repr

/-- The response statuses (30_encoding.md R68); 3 is never produced. -/
inductive Status where
  | ok
  | invalidParameter
  | reservedOp
  deriving DecidableEq, Repr

/-- `rsp_status`, 2 bits (R68). -/
def Status.code : Status → BitVec 2
  | .ok => 0#2
  | .invalidParameter => 1#2
  | .reservedOp => 2#2

/-- One command's response (R67): `rsp_status`, `rsp_len` and the payload bytes in ascending offset order. -/
structure Response where
  status : Status
  len : Word
  data : List Byte
  deriving DecidableEq, Repr

/-- What the output ports can show (R27): a response, or one pulse of `pull_req` (43_pull.md R141). -/
inductive Output where
  | response (r : Response)
  | pullReq
  deriving DecidableEq, Repr

/-- Why the machine stops with a fault. -/
inductive Fault where
  /-- TICK's sample store would lie outside FILL (`fillIndex` odd, or not below `fillSize`): raised by TICK, and
  only in a state that no run reaches (41_oscillator_tick.md R105, 10_state.md R29 item 5). Safe (log 12). -/
  | fillSlotOutside
  deriving DecidableEq, Repr

/-- Why the model gives a step no meaning. -/
inductive Refusal where
  /-- An instruction without a meaning yet; raised by `exec`'s refused arms only. Safe. -/
  | notModelled (mnemonic : String)
  /-- Reset with the strap at 0: "no machine exists for 0" (60_exceptions.md R159, 93 U1); raised by the reset
  step. Safe (log 10). -/
  | sampleRateZero
  deriving DecidableEq, Repr

/-- The state record (10_state.md R10), the build parameters (00_scope.md R5), and the model's own record of the
ports (log 5, log 6) and of the free values drawn (log 3, log 4). -/
structure State where
  /-- The build parameters; no step writes them. -/
  cfg : Config
  /-- R17. -/
  sampleRate : Word
  /-- R18. -/
  samplePeriodNs : Word
  /-- R19, signed. -/
  bufferSize : Word
  /-- R11. -/
  amplitude : Amp
  /-- R12. -/
  periodNs : Word
  /-- R13. -/
  newPeriodNs : Word
  /-- R14, the phase accumulator. -/
  position : Word
  /-- R15. -/
  playoutTimeUs : Micros
  /-- R16. -/
  playoutSoFarNs : Word
  /-- R23, the committed buffer. -/
  outBuf : Memory
  /-- R23, its length in bytes. -/
  outLen : Word
  /-- R20. -/
  fillSize : Word
  /-- R21. -/
  fillIndex : Word
  /-- R22, the bytes stored since the last Commit. -/
  fillBuf : Memory
  /-- R24. -/
  halted : Bool
  /-- The model's own: what the input ports will present, the next instant first. -/
  inputs : List PortInput
  /-- The model's own: what the output ports have shown, the oldest first. -/
  outputs : List Output
  /-- The model's own: how many free arbitration choices have been drawn. -/
  arbCount : Nat
  /-- The model's own: how many fill buffers have been allocated, the index of the free bytes. -/
  bufGen : Nat
  deriving DecidableEq, Repr

/-- The registers right after reset (R28, R171), for any build parameters and any strap. -/
def State.resetOf (cfg : Config) (strap : Word) : State where
  cfg := cfg
  sampleRate := strap
  samplePeriodNs := samplePeriodOf strap
  bufferSize := BitVec.ofNat 32 cfg.bufszDefault
  amplitude := 1023#10
  periodNs := 0#32
  newPeriodNs := 0#32
  position := 0#32
  playoutTimeUs := 0#42
  playoutSoFarNs := 0#32
  outBuf := []
  outLen := 0#32
  fillSize := BitVec.ofNat 32 cfg.bufszDefault
  fillIndex := 0#32
  fillBuf := []
  halted := false
  inputs := []
  outputs := []
  arbCount := 0
  bufGen := 0

/-- The machine right after reset, at the build parameters and the strap that log 1 to log 3 name. -/
def State.reset : State := State.resetOf Config.default Config.defaultStrap

end Sys2Proof.Machine
end

