-- ==== Sys2Proof/Machine/Flags.lean ====
section
/-! DEFINITION. TONEGEN stores no flags; these are the three derived predicates of 10_state.md R25 and the level of
the `gen_halted` pin (30_encoding.md R72). -/

namespace Sys2Proof.Machine

/-- `silent` (R25): "0 means silence". -/
abbrev State.silent (s : State) : Prop := s.periodNs = 0#32

/-- `timed` (R25): the PlayoutTimer is in its Timed state; its negation is Indefinite. -/
abbrev State.timed (s : State) : Prop := 0 < s.playoutTimeUs.toNat

/-- `switchPending` (R25). -/
abbrev State.switchPending (s : State) : Prop := s.periodNs ≠ s.newPeriodNs

/-- SETB's signed test on the stored size (40_config_commands.md R83). -/
abbrev State.bufferSizeCorrupt (s : State) : Prop := s.bufferSize.toInt ≤ 0

/-- The level of the `gen_halted` pin (R72). -/
def State.genHalted (s : State) : Bool := s.halted

end Sys2Proof.Machine
end

