-- ==== Sys2Proof/Machine/Ops.lean ====
section
/-! DEFINITION. The shared operations: the bytes of a buffer (20_memory.md R41, R42), the responses (30_encoding.md
R67) and the one synchronous error (60_exceptions.md R150 to R152), the notification (43_pull.md R141), Commit
(41_oscillator_tick.md R106) and the effect of reset (70_reset_and_hazards.md R171). -/

namespace Sys2Proof.Machine

/-- The byte at an offset, if anything has written it. -/
def Memory.read : Memory → Nat → Option Byte
  | [], _ => none
  | (a, b) :: m, k => if a = k then some b else Memory.read m k

/-- A buffer with one byte written, in canonical form again. -/
def Memory.write : Memory → Nat → Byte → Memory
  | [], k, v => [(k, v)]
  | (a, b) :: m, k, v =>
    if k < a then (k, v) :: (a, b) :: m
    else if k = a then (k, v) :: m
    else (a, b) :: Memory.write m k v

/-- `MemWrite(space, addr, 2, v)` (00_scope.md R8): the low byte at `addr`, the high byte at `addr + 1` (R42). -/
def Memory.write16 (m : Memory) (addr : Nat) (v : Sample) : Memory :=
  (m.write addr v.lowByte).write (addr + 1) v.highByte

/-- The byte an offset reads as: the byte written there, else the free byte of that offset (R51, log 4). -/
def Memory.byteAt (m : Memory) (free : Nat → Byte) (addr : Nat) : Byte := (m.read addr).getD (free addr)

/-- `MemRead(space, 0, n)` (R8): `n` bytes in ascending offset order. -/
def Memory.readBytes (m : Memory) (free : Nat → Byte) (n : Nat) : List Byte :=
  (List.range n).map (m.byteAt free)

/-- A buffer holding the first `n` bytes of `m`, every one of them written. -/
def Memory.copyOf (m : Memory) (free : Nat → Byte) (n : Nat) : Memory :=
  (List.range n).map (fun a => (a, m.byteAt free a))

/-- The byte at offset `a` of FILL. -/
def State.fillByte (s : State) (a : Nat) : Byte := s.fillBuf.byteAt (Config.freeByte s.bufGen) a

/-- The byte at offset `a` of OUT. -/
def State.outByte (s : State) (a : Nat) : Byte := s.outBuf.byteAt (Config.freeByte s.bufGen) a

/-- The slot at `idx` exists in a buffer of `size` bytes: an even offset with both bytes inside (R41, R43). -/
abbrev SlotExists (idx size : Word) : Prop := idx.toNat % 2 = 0 ∧ idx.toNat + 1 < size.toNat

/-- `respond(status, len, bytes)` (R8, R67): the response appears on the response port. -/
def respond (status : Status) (len : Word) (data : List Byte) (s : State) : State :=
  { s with outputs := s.outputs ++ [.response { status := status, len := len, data := data }] }

/-- `respond(status)`: a response without payload (R67). -/
def respondStatus (status : Status) (s : State) : State := respond status 0#32 [] s

/-- `raise InvalidParameter` (R8, R150, R152): the error is a status; nothing is saved, nothing changes, control
goes nowhere. There is nothing to return from (R156): the next step is decoded as if this one had not been. -/
def raiseInvalidParameter (s : State) : State := respondStatus .invalidParameter s

/-- The answer to a reserved command word (R66, R151): `ST_RESERVED_OP`, no state change (log 7). -/
def answerReserved (s : State) : State := respondStatus .reservedOp s

/-- `emit pull_req` (R8, R141): one pulse. -/
def emitPullReq (s : State) : State := { s with outputs := s.outputs ++ [.pullReq] }

/-- The hand-over of Commit (R106): FILL becomes OUT as one action (R44), the pulse follows it. -/
def handOver (s : State) : State :=
  emitPullReq { s with
    outBuf := s.fillBuf.copyOf (Config.freeByte s.bufGen) s.fillSize.toNat
    outLen := s.fillSize }

/-- The allocation of Commit (R106): a fresh buffer of the currently configured size, or, where that size is
illegal, none: the generator halts (R160). -/
def allocateNext (s : State) : State :=
  if LegalSize s.cfg.bufMaxBytes s.bufferSize.toInt then
    { s with fillIndex := 0#32, fillBuf := [], bufGen := s.bufGen + 1, fillSize := s.bufferSize }
  else
    { s with fillIndex := 0#32, fillBuf := [], bufGen := s.bufGen + 1, fillSize := 0#32, halted := true }

/-- `Commit()` (R106). -/
def commit (s : State) : State := allocateNext (handOver s)

/-- The effect of reset (R171): every register takes its reset value for the strap, everything else is
discarded. The build parameters stay, the ports' record goes on (log 6), and the fresh fill buffer has free bytes
of its own (log 4). -/
def resetRegisters (strap : Word) (s : State) : State :=
  { State.resetOf s.cfg strap with
    inputs := s.inputs
    outputs := s.outputs
    arbCount := s.arbCount
    bufGen := s.bufGen + 1 }

/-- The reset step (R170, R171); a strap of 0 builds no machine (R159). -/
def performReset (strap : Word) (s : State) : Host.Outcome State Fault Refusal :=
  if strap = 0#32 then .refused .sampleRateZero else .next (resetRegisters strap s)

end Sys2Proof.Machine
end

