-- ==== Sys2Proof/Machine/Commands.lean ====
section
/-! DEFINITION. The configuration commands (40_config_commands.md R80 to R84) and the data command PULL
(43_pull.md R140). -/

namespace Sys2Proof.Machine

/-- The three register writes that SETF and SETFD share (R80): the period is requested, not adopted; the countdown
restarts. -/
def requestTone (periodNs timeUs : Nat) (s : State) : State :=
  { s with
    newPeriodNs := BitVec.ofNat 32 periodNs
    playoutTimeUs := BitVec.ofNat 42 timeUs
    playoutSoFarNs := 0#32 }

/-- SETF `hz` (R81): indefinite playout. -/
def execSetf (hz : Nat) (s : State) : Host.Outcome State Fault Refusal :=
  .next (respondStatus .ok (requestTone (hzToPeriodNs hz) 0 s))

/-- SETFD `hz, ms` (R80). -/
def execSetfd (hz ms : Nat) (s : State) : Host.Outcome State Fault Refusal :=
  .next (respondStatus .ok (requestTone (hzToPeriodNs hz) (msToUs ms) s))

/-- SETV `level` (R82): rejected, never saturated, when out of range (90_conflicts.md C9). -/
def execSetv (level : Nat) (s : State) : Host.Outcome State Fault Refusal :=
  .next
    (if LevelAccepted level then respondStatus .ok { s with amplitude := BitVec.ofNat 10 level }
     else raiseInvalidParameter s)

/-- SETB `bytes` (R83): the test is on the STORED size, the requested one is not checked. -/
def execSetb (bytes : Int) (s : State) : Host.Outcome State Fault Refusal :=
  .next
    (if s.bufferSizeCorrupt then raiseInvalidParameter s
     else respondStatus .ok { s with bufferSize := BitVec.ofInt 32 bytes })

/-- PULL (R140): the whole committed buffer in the response, no state change. -/
def execPull (s : State) : Host.Outcome State Fault Refusal :=
  .next (respond .ok s.outLen ((List.range s.outLen.toNat).map s.outByte) s)

end Sys2Proof.Machine
end

