-- ==== Sys2Proof/Machine/Playout.lean ====
section
/-! DEFINITION. The playout timer: PlayoutStep, step 4 of TICK (42_playout_timer.md R120), by the closed form of
R121 ("hardware may compute the step without iterating"), and beside it the loop of R120 word for word, which an
obligation states it to be equal to. -/

namespace Sys2Proof.Machine

/-- The three registers that the countdown loop of R120 reads and writes, as numbers (00_scope.md R7). -/
structure Countdown where
  timeUs : Nat
  soFarNs : Nat
  newPeriodNs : Nat
  deriving DecidableEq, Repr

/-- The body of R120's loop: one microsecond is taken from the remainder and counted off, under the guard; the
decrement that reaches 0 asks for silence. -/
def countdownBody (c : Countdown) : Countdown :=
  let c := { c with soFarNs := c.soFarNs - 1000 }
  if 0 < c.timeUs then
    let c := { c with timeUs := c.timeUs - 1 }
    if c.timeUs = 0 then { c with newPeriodNs := 0 } else c
  else c

/-- R120's loop, `while playoutSoFarNs > 1000`, with at most `fuel` iterations. -/
def countdownLoop : Nat → Countdown → Countdown
  | 0, c => c
  | fuel + 1, c => if 1000 < c.soFarNs then countdownLoop fuel (countdownBody c) else c

/-- The number of iterations R120's loop makes from a remainder of `sum` (R121: `(S - 1) div 1000`). -/
def countdownIterations (sum : Nat) : Nat := (sum - 1) / 1000

/-- The countdown in closed form (R121), from a remainder to which the sample period has been added. -/
def countdownClosed (c : Countdown) : Countdown where
  timeUs := c.timeUs - min (countdownIterations c.soFarNs) c.timeUs
  soFarNs := c.soFarNs - 1000 * countdownIterations c.soFarNs
  newPeriodNs := if c.timeUs ≤ countdownIterations c.soFarNs then 0 else c.newPeriodNs

/-- The countdown registers with the sample period added to the remainder, a u32 (R120's first statement). -/
def State.countdown (s : State) : Countdown where
  timeUs := s.playoutTimeUs.toNat
  soFarNs := (s.playoutSoFarNs + s.samplePeriodNs).toNat
  newPeriodNs := s.newPeriodNs.toNat

/-- The countdown registers written back. -/
def State.withCountdown (s : State) (c : Countdown) : State :=
  { s with
    playoutTimeUs := BitVec.ofNat 42 c.timeUs
    playoutSoFarNs := BitVec.ofNat 32 c.soFarNs
    newPeriodNs := BitVec.ofNat 32 c.newPeriodNs }

/-- `PlayoutStep()` (R120): nothing at all while Indefinite (log 15). -/
def playoutStep (s : State) : State :=
  if s.timed then s.withCountdown (countdownClosed s.countdown) else s

end Sys2Proof.Machine
end

