-- ==== Sys2Proof/Machine/Tick.lean ====
section
/-! DEFINITION. The oscillator: operation TICK and its six steps (41_oscillator_tick.md R100 to R106). -/

namespace Sys2Proof.Machine

/-- The quotient of step 1 (R102): exact product, floor division; 0 while silent. -/
def rampQuotient (s : State) : Nat :=
  if s.silent then 0 else s.amplitude.toNat * s.position.toNat / s.periodNs.toNat

/-- Step 1, the linear ramp converter (R102): the low 16 bits of the quotient (outside the
envelope: log 8). -/
def rampSample (s : State) : Sample := BitVec.ofNat 16 (rampQuotient s)

/-- Step 2, phase advance (R103): modulo 2^32, while silent too (log 8, log 14). -/
def advancePhase (s : State) : State := { s with position := s.position + s.samplePeriodNs }

/-- Step 3, wrap and deferred period switch (R104): one subtraction at most; a pending period is adopted only at a
wrap boundary, and then the phase is forced to 0. -/
def wrapAndSwitch (s : State) : State :=
  if s.periodNs ≤ s.position then
    if s.switchPending then { s with position := 0#32, periodNs := s.newPeriodNs }
    else { s with position := s.position - s.periodNs }
  else s

/-- Step 5, sample store (R105). -/
def storeSample (v : Sample) (s : State) : State :=
  { s with
    fillBuf := s.fillBuf.write16 s.fillIndex.toNat v
    fillIndex := s.fillIndex + 2#32 }

/-- Step 6, buffer completion (R106): Commit when the buffer is full. -/
def completeBuffer (s : State) : State := if s.fillIndex = s.fillSize then commit s else s

/-- The six steps of TICK in their order (R100): the sample is that of the phase before the advance, and the
countdown comes after the switch. -/
def tickSteps (s : State) : State :=
  completeBuffer (storeSample (rampSample s) (playoutStep (wrapAndSwitch (advancePhase s))))

/-- TICK (R100, R69): an activation of the strobe while halted does nothing (R69, R160; log 11); a slot
outside FILL exists in no reachable state (log 12). -/
def execTick (s : State) : Host.Outcome State Fault Refusal :=
  if s.halted then .next s
  else if SlotExists s.fillIndex s.fillSize then .next (tickSteps s)
  else .fault .fillSlotOutside

end Sys2Proof.Machine
end

