-- ==== Sys2Proof/Machine/Dispatch.lean ====
section
/-! DEFINITION. One arm per operation. An operand that no command word can carry is cut to its register (log 16). -/

namespace Sys2Proof.Machine

def exec (i : Instr) (s : State) : Host.Outcome State Fault Refusal :=
  match i with
  | .setf hz => Sys2Proof.Machine.execSetf hz s
  | .setfd hz ms => Sys2Proof.Machine.execSetfd hz ms s
  | .setv level => Sys2Proof.Machine.execSetv level s
  | .setb bytes => Sys2Proof.Machine.execSetb bytes s
  | .pull => Sys2Proof.Machine.execPull s
  | .tick => Sys2Proof.Machine.execTick s

end Sys2Proof.Machine
end

