-- ==== Sys2Proof/Machine/Fetch.lean ====
section
/-! DEFINITION. What the machine is to do next: the ports' next instant, the priority of reset (60_exceptions.md
R155) and the order of a command and a TICK presented together (20_memory.md R48). -/

namespace Sys2Proof.Machine

/-- The next atomic step (20_memory.md R47), with the state in which it is performed: its input has left the
queue. -/
inductive Action where
  /-- Nothing is presented. -/
  | idle (s : State)
  /-- `rst` is active, with this strap. -/
  | reset (strap : Word) (s : State)
  /-- A command word or an activation of the strobe. -/
  | perform (f : Fetched) (s : State)
  deriving DecidableEq, Repr

/-- Whether the TICK goes before the command (R48, `ARB_ORDER`). -/
def tickGoesFirst (s : State) : Bool :=
  match s.cfg.arbOrder with
  | .either => Config.freeTickFirst s.arbCount
  | .cmdFirst => false
  | .tickFirst => true

/-- The count of free choices drawn, after one arbitration. -/
def arbCountAfter (s : State) : Nat :=
  match s.cfg.arbOrder with
  | .either => s.arbCount + 1
  | .cmdFirst => s.arbCount
  | .tickFirst => s.arbCount

/-- A command and the strobe at one instant (R48): one is performed now, the other stays presented. -/
def arbitrate (w : CmdWord) (p : PortInput) (rest : List PortInput) (s : State) : Action :=
  if tickGoesFirst s then
    .perform (.strobe 1#1)
      { s with inputs := { p with sampleEn := false } :: rest, arbCount := arbCountAfter s }
  else
    .perform (.command w) { s with inputs := { p with cmd := none } :: rest, arbCount := arbCountAfter s }

/-- The next atomic step. Reset overrides everything presented with it (R155 item 1, R170). -/
def nextAction (s : State) : Action :=
  match s.inputs with
  | [] => .idle s
  | p :: rest =>
    if p.rst then .reset p.sampleRate { s with inputs := rest }
    else
      match p.cmd with
      | some w =>
        if p.sampleEn then arbitrate w p rest s
        else .perform (.command w) { s with inputs := rest }
      | none =>
        if p.sampleEn then .perform (.strobe 1#1) { s with inputs := rest }
        else .idle { s with inputs := rest }

/-- The instant that presents an instruction and nothing else. -/
def instantOf : Fetched → PortInput
  | .command w => { cmd := some w }
  | .strobe en => { sampleEn := en == 1#1 }

end Sys2Proof.Machine
end

