-- ==== Sys2Proof/Machine/Step.lean ====
section
/-! DEFINITION. One atomic step of the machine (20_memory.md R47): a reset, a command, a TICK, or nothing where
nothing is presented. -/

namespace Sys2Proof.Machine

/-- What is presented is decoded and performed; a reserved command word gets its answer (30_encoding.md R66). -/
def performFetched (f : Fetched) (s : State) : Host.Outcome State Fault Refusal :=
  match decode f with
  | .instr i => exec i s
  | .reserved _ => .next (answerReserved s)
  | .inactive => .next s

/-- One step. -/
def step (s : State) : Host.Outcome State Fault Refusal :=
  match nextAction s with
  | .idle s' => .next s'
  | .reset strap s' => performReset strap s'
  | .perform f s' => performFetched f s'

/-- `s` with the instruction that a row's bits give presented at its very next instant (log 5). -/
def State.withFetchWord (s : State) (nbits w : Nat) : State :=
  { s with inputs := instantOf (tableWord nbits w) :: s.inputs }

end Sys2Proof.Machine
end

