-- ==== Sys2Proof/Safety.lean ====
section
/-! DEFINITION. What a claim is stated in: the operating envelope (00_scope.md R9), the invariants of 10_state.md
R29, and runs. -/

namespace Sys2Proof.Machine

/-- The build parameters are ones the spec allows: `BUF_MAX_BYTES` even, 2 .. 2^31-2; `BUFSZ_DEFAULT` a legal size
(00_scope.md R5, 70_reset_and_hazards.md R174 item 2). -/
abbrev LegalConfig (c : Config) : Prop :=
  c.bufMaxBytes % 2 = 0 ∧ 2 ≤ c.bufMaxBytes ∧ c.bufMaxBytes ≤ 2 ^ 31 - 2 ∧
    LegalSize c.bufMaxBytes c.bufszDefault

/-- The state is inside the envelope (00_scope.md R9). -/
abbrev State.InEnvelope (s : State) : Prop :=
  1 ≤ s.samplePeriodNs.toNat ∧
    (s.periodNs = 0#32 ∨ s.samplePeriodNs.toNat ≤ s.periodNs.toNat) ∧
    (s.newPeriodNs = 0#32 ∨ s.samplePeriodNs.toNat ≤ s.newPeriodNs.toNat) ∧ s.halted = false

/-- TICK is enabled and its slot exists: what a TICK that has its effect needs of the state (41_oscillator_tick.md
R101, R105). -/
abbrev State.CanTick (s : State) : Prop := s.halted = false ∧ SlotExists s.fillIndex s.fillSize

/-- R17, R18: the sample period is the one derived from a nonzero rate. -/
abbrev State.RateDerived (s : State) : Prop :=
  s.sampleRate ≠ 0#32 ∧ s.samplePeriodNs.toNat = 10 ^ 9 / s.sampleRate.toNat

/-- R29 item 2. -/
abbrev State.PeriodsInRange (s : State) : Prop := s.periodNs.toNat ≤ 10 ^ 9 ∧ s.newPeriodNs.toNat ≤ 10 ^ 9

/-- R29 items 3 and 4. -/
abbrev State.TimerInRange (s : State) : Prop :=
  s.playoutSoFarNs.toNat ≤ 1000 ∧ s.playoutTimeUs.toNat ≤ 1000 * (2 ^ 32 - 1)

/-- R29 items 5 and 6, and R20's last sentence. -/
abbrev State.BuffersShaped (s : State) : Prop :=
  s.fillIndex.toNat % 2 = 0 ∧
    (s.halted = false →
      LegalSize s.cfg.bufMaxBytes s.fillSize.toNat ∧ s.fillIndex.toNat < s.fillSize.toNat) ∧
    (s.halted = true → s.fillSize = 0#32) ∧
    (s.outLen = 0#32 ∨ LegalSize s.cfg.bufMaxBytes s.outLen.toNat)

/-- R22, R23: FILL lists exactly the bytes stored since the last Commit, OUT exactly the committed buffer. -/
abbrev State.BuffersWritten (s : State) : Prop :=
  s.fillBuf.map Prod.fst = List.range s.fillIndex.toNat ∧ s.outBuf.map Prod.fst = List.range s.outLen.toNat

/-- Both buffers are in canonical form. -/
abbrev State.MemoriesCanonical (s : State) : Prop := Memory.wf s.fillBuf ∧ Memory.wf s.outBuf

/-- R29 item 7, in the form that every step keeps: the condition on the pending period (R9 item 3) is not needed,
since adopting a period forces the phase to 0. -/
abbrev State.PhaseInRange (s : State) : Prop :=
  1 ≤ s.samplePeriodNs.toNat → s.samplePeriodNs.toNat ≤ s.periodNs.toNat → s.position.toNat < s.periodNs.toNat

/-- The invariant of the machine (R29). -/
structure State.Inv (s : State) : Prop where
  config : LegalConfig s.cfg
  rate : s.RateDerived
  periods : s.PeriodsInRange
  timer : s.TimerInRange
  shape : s.BuffersShaped
  written : s.BuffersWritten
  phase : s.PhaseInRange

/-- The three responses without a payload (30_encoding.md R67, R68). -/
def okAnswer : Output := .response { status := .ok, len := 0#32, data := [] }
def invalidAnswer : Output := .response { status := .invalidParameter, len := 0#32, data := [] }
def reservedAnswer : Output := .response { status := .reservedOp, len := 0#32, data := [] }

/-- The four configuration commands (40_config_commands.md R84). -/
def configCommand : Instr → Bool
  | .setf _ => true
  | .setfd _ _ => true
  | .setv _ => true
  | .setb _ => true
  | .pull => false
  | .tick => false

/-- The instant presents a command word and nothing else. -/
abbrev PortInput.OnlyCommand (p : PortInput) (w : CmdWord) : Prop :=
  p.rst = false ∧ p.cmd = some w ∧ p.sampleEn = false

/-- The instant presents an activation of the strobe and nothing else. -/
abbrev PortInput.OnlyStrobe (p : PortInput) : Prop := p.rst = false ∧ p.cmd = none ∧ p.sampleEn = true

/-- The instant presents a command word and an activation of the strobe together (20_memory.md R48). -/
abbrev PortInput.Together (p : PortInput) (w : CmdWord) : Prop :=
  p.rst = false ∧ p.cmd = some w ∧ p.sampleEn = true

/-- The ramp value of step 1 of TICK, from the registers alone (41_oscillator_tick.md R102). -/
def State.rampValue (s : State) : Nat :=
  if s.periodNs.toNat = 0 then 0 else s.amplitude.toNat * s.position.toNat / s.periodNs.toNat

/-- The value of `position` after step 2 of TICK (R103). -/
def State.advancedPhase (s : State) : Nat := (s.position.toNat + s.samplePeriodNs.toNat) % 2 ^ 32

/-- The pulses of `pull_req` shown so far (43_pull.md R141). -/
def State.pulses (s : State) : Nat := s.outputs.count .pullReq

/-- No reset is presented at any instant of the queue. -/
abbrev State.NoReset (s : State) : Prop := ∀ p ∈ s.inputs, p.rst = false

/-- Operations performed one after the other, stopping at the first that does not complete. -/
def runInstrs : List Instr → State → Host.Outcome State Fault Refusal
  | [], s => .next s
  | i :: is, s =>
    match exec i s with
    | .next t => runInstrs is t
    | .fault r => .fault r
    | .refused r => .refused r

/-- `TICK n` (30_encoding.md R71): `n` consecutive TICKs. -/
def ticks (n : Nat) (s : State) : Host.Outcome State Fault Refusal := runInstrs (List.replicate n .tick) s

/-- Commands and strobes performed one after the other, each as the step performs it (20_memory.md R47), stopping at the
first that does not answer a next state. -/
def performAll : List Fetched → State → Host.Outcome State Fault Refusal
  | [], s => .next s
  | f :: fs, s =>
    match performFetched f s with
    | .next t => performAll fs t
    | .fault r => .fault r
    | .refused r => .refused r

/-- How many of them are activations of the strobe. -/
def tickCount (fs : List Fetched) : Nat := fs.count (.strobe 1#1)

/-- SETF and SETFD, the commands that write the requested period and the countdown (10_state.md R26). -/
def frequencyCommand : Instr → Bool
  | .setf _ => true
  | .setfd _ _ => true
  | .setv _ => false
  | .setb _ => false
  | .pull => false
  | .tick => false

/-- None of them is a SETF or a SETFD; SETV, SETB, PULL, reserved words and TICKs may stand among them. -/
abbrev NoFrequencyCommand (fs : List Fetched) : Prop :=
  ∀ f ∈ fs, ∀ i, decode f = .instr i → frequencyCommand i = false

/-- Every SETB among them requests a legal size (70_reset_and_hazards.md R185: what software must do). -/
abbrev RequestsLegalSizes (bufMaxBytes : Nat) (fs : List Fetched) : Prop :=
  ∀ f ∈ fs, ∀ bytes, decode f = .instr (.setb bytes) → LegalSize bufMaxBytes bytes

/-- Silent with no tone requested, and nothing but zeros in the bytes that have been stored (41_oscillator_tick.md R108
item 3). -/
abbrev State.SilentWithZeros (s : State) : Prop :=
  s.periodNs = 0#32 ∧ s.newPeriodNs = 0#32 ∧ (∀ c ∈ s.fillBuf, c.2 = 0#8) ∧ ∀ c ∈ s.outBuf, c.2 = 0#8

/-- `k` steps of the machine, stopping at the first that does not answer a next state. -/
def run : Nat → State → Host.Outcome State Fault Refusal
  | 0, s => .next s
  | k + 1, s =>
    match step s with
    | .next t => run k t
    | .fault r => .fault r
    | .refused r => .refused r

end Sys2Proof.Machine
end

