-- ==== Sys2Proof/Certificates/Slice0/Obligations.lean ====
section
/-! DEFINITION. The statements for the provers, each from the numbered rules of spec/. -/

open Sys2Proof Sys2Proof.Machine

/-! ### Encoding -/

/-- 30_encoding.md R60, R61, R65: no bit of an operand is lost between the encoder and the decoder, for every operation
and every operand its encoding admits. -/
def Obligations.DecodeOfEncodeIsTheInstruction : Prop :=
  ∀ i : Instr, i.WellFormed → decode (encode i) = .instr i

/-- The other direction: a word that decodes is its instruction's encoding, but for the fields that R65 ignores, which
the encoder writes as zero. -/
def Obligations.EncodeOfDecodeClearsOnlyIgnoredFields : Prop :=
  ∀ (op : BitVec 8) (a1 a0 : Word) (i : Instr),
    decode (.command (commandWord op a1 a0)) = .instr i →
      encode i = .command
        (commandWord op (if op = 0x02#8 then a1 else 0#32) (if op = 0x05#8 then 0#32 else a0))

/-- R65: ignored fields take no part in decoding, and an assembler emits them as zero; R61 says which fields they are. -/
def Obligations.IgnoredFieldsTakeNoPartInDecoding : Prop :=
  (∀ op ∈ [0x01#8, 0x03#8, 0x04#8], ∀ a b v : Word,
      decode (.command (commandWord op a v)) = decode (.command (commandWord op b v))) ∧
  (∀ a v : Word, decode (.command (commandWord 0x05#8 a v)) = .instr .pull) ∧
  (∀ i w, encode i = .command w → (∀ hz ms, i ≠ .setfd hz ms) → w.extractLsb' 32 32 = 0#32) ∧
  (∀ w, encode .pull = .command w → w.extractLsb' 0 32 = 0#32)

/-- The reserved words are exactly those of the opcodes R61 does not list; the hardware behaviour of R66 and R151: the
one effect is the response. (93 U6 also allows a model to refuse them; performing the answer is the model's choice, log
7.) -/
def Obligations.ReservedWordsAreAnsweredAndChangeNothing : Prop :=
  ∀ w : CmdWord,
    ((w.extractLsb' 64 8 = 0#8 ∨ 6 ≤ (w.extractLsb' 64 8).toNat) ↔
      decode (.command w) = .reserved (w.extractLsb' 64 8)) ∧
    ∀ (s : State) (p : PortInput) (rest : List PortInput), s.inputs = p :: rest → p.OnlyCommand w →
      (w.extractLsb' 64 8 = 0#8 ∨ 6 ≤ (w.extractLsb' 64 8).toNat) →
        step s = .next { s with inputs := rest, outputs := s.outputs ++ [reservedAnswer] }

/-- A sanity statement: words written out from the encodings of R60, R61 (vectors V-ENC-1, 3, 5, 8, 11, 13 of
95_test_vectors.md) and the strobe of R69 decode to what they stand for. -/
def Obligations.WrittenOutWordsDecode : Prop :=
  decode (.command 0x0100000000000003E8#72) = .instr (.setf 1000) ∧
  decode (.command 0x02000001F4000001B8#72) = .instr (.setfd 440 500) ∧
  decode (.command 0x030000000000000200#72) = .instr (.setv 512) ∧
  decode (.command 0x0400000000FFFFFFFE#72) = .instr (.setb (-2)) ∧
  decode (.command 0x05123456789ABCDEF0#72) = .instr .pull ∧
  decode (.command 0x000000000000000000#72) = .reserved 0x00#8 ∧
  decode (.strobe 1#1) = .instr .tick

/-- R62: what the decoder reads from any word is in the operand ranges the rule gives. -/
def Obligations.DecodedInstructionIsWellFormed : Prop :=
  ∀ (f : Fetched) (i : Instr), decode f = .instr i → i.WellFormed

/-- R63: the period is the nearest whole number of nanoseconds, a tie going upward; its range, and the ranges of
frequencies whose period is 1 and 0. -/
def Obligations.FrequencyRoundsToTheNearestPeriod : Prop :=
  hzToPeriodNs 0 = 0 ∧ hzToPeriodNs 1 = 10 ^ 9 ∧
  ∀ hz : Nat, 0 < hz → hz < 2 ^ 32 →
    2 * 10 ^ 9 < 2 * hz * hzToPeriodNs hz + hz ∧ 2 * hz * hzToPeriodNs hz ≤ 2 * 10 ^ 9 + hz ∧
    hzToPeriodNs hz ≤ 10 ^ 9 ∧
    (hzToPeriodNs hz = 1 ↔ 666666667 ≤ hz ∧ hz ≤ 2000000000) ∧
    (hzToPeriodNs hz = 0 ↔ 2000000000 < hz)

/-! ### The step -/

/-- 20_memory.md R47, 30_encoding.md R69: a command word alone at the ports that decodes to `i` makes the step the
meaning of `i`, an activation of the strobe alone makes it TICK; so does an instruction placed for the next instant. The
step adds to the meaning only that the instant leaves the queue. -/
def Obligations.StepRunsTheDecodedInstruction : Prop :=
  (∀ (s : State) (p : PortInput) (rest : List PortInput) (w : CmdWord) (i : Instr), s.inputs = p :: rest →
      p.OnlyCommand w → decode (.command w) = .instr i → step s = exec i { s with inputs := rest }) ∧
  (∀ (s : State) (p : PortInput) (rest : List PortInput), s.inputs = p :: rest → p.OnlyStrobe →
      step s = exec .tick { s with inputs := rest }) ∧
  (∀ (s : State) (nbits w : Nat) (i : Instr), decodeTableWord nbits w = some i →
      step (s.withFetchWord nbits w) = exec i s)

/-- 20_memory.md R48: a command and a TICK presented together are two steps, one after the other, in the order of
`ARB_ORDER`; with `either` the first is one of the two. -/
def Obligations.CommandAndTickTogetherAreTwoSteps : Prop :=
  ∀ (s : State) (p : PortInput) (rest : List PortInput) (w : CmdWord), s.inputs = p :: rest → p.Together w →
    (s.cfg.arbOrder = .cmdFirst →
      step s = performFetched (.command w) { s with inputs := { p with cmd := none } :: rest }) ∧
    (s.cfg.arbOrder = .tickFirst →
      step s = exec .tick { s with inputs := { p with sampleEn := false } :: rest }) ∧
    (s.cfg.arbOrder = .either →
      step s = performFetched (.command w)
          { s with inputs := { p with cmd := none } :: rest, arbCount := s.arbCount + 1 } ∨
      step s = exec .tick
          { s with inputs := { p with sampleEn := false } :: rest, arbCount := s.arbCount + 1 }) ∧
    (∀ t : State, t.inputs = { p with cmd := none } :: rest → step t = exec .tick { t with inputs := rest }) ∧
    (∀ t : State, t.inputs = { p with sampleEn := false } :: rest →
      step t = performFetched (.command w) { t with inputs := rest })

/-- 60_exceptions.md R155 item 1, 70_reset_and_hazards.md R170, R171, with the values of 10_state.md R28: reset overrides a
command and a strobe presented with it (they are discarded without a response), and every register takes its reset value.
That the record of the outputs goes on and that the queue loses that instant is the model's choice (log 5, log 6). -/
def Obligations.ResetOverridesAndSetsEveryRegister : Prop :=
  ∀ (s : State) (p : PortInput) (rest : List PortInput), s.inputs = p :: rest → p.rst = true →
    p.sampleRate ≠ 0#32 → LegalConfig s.cfg →
    ∃ t : State, step s = .next t ∧
      t.sampleRate = p.sampleRate ∧ t.samplePeriodNs.toNat = 10 ^ 9 / p.sampleRate.toNat ∧
      t.amplitude.toNat = 1023 ∧ t.periodNs = 0#32 ∧ t.newPeriodNs = 0#32 ∧ t.position = 0#32 ∧
      t.playoutTimeUs = 0#42 ∧ t.playoutSoFarNs = 0#32 ∧
      t.bufferSize.toInt = s.cfg.bufszDefault ∧ t.fillSize.toNat = s.cfg.bufszDefault ∧
      t.fillIndex = 0#32 ∧ t.fillBuf = [] ∧ t.outLen = 0#32 ∧ t.outBuf = [] ∧
      t.halted = false ∧ t.genHalted = false ∧
      t.silent ∧ ¬ t.timed ∧ ¬ t.switchPending ∧
      t.outputs = s.outputs ∧ t.inputs = rest ∧ t.cfg = s.cfg

/-- 60_exceptions.md R159: a strap of 0 at reset is refused: no machine is built. -/
def Obligations.ZeroStrapIsRefused : Prop :=
  ∀ (s : State) (p : PortInput) (rest : List PortInput), s.inputs = p :: rest → p.rst = true →
    p.sampleRate = 0#32 → step s = .refused .sampleRateZero

/-- 70_reset_and_hazards.md R172: without a reset the strap has no effect on the step, and the two registers derived
from it keep their values. -/
def Obligations.StrapIsReadOnlyAtReset : Prop :=
  ∀ (s t : State) (p : PortInput) (rest : List PortInput) (strap : Word), s.inputs = p :: rest → p.rst = false →
    step s = .next t →
    t.sampleRate = s.sampleRate ∧ t.samplePeriodNs = s.samplePeriodNs ∧
      ∃ ins, step { s with inputs := { p with sampleRate := strap } :: rest } = .next { t with inputs := ins } ∧
        ins.map (fun q => { q with sampleRate := 0#32 }) = t.inputs.map (fun q => { q with sampleRate := 0#32 })

/-- R47 (the record changes only by a reset, a command or a TICK): with nothing presented the step changes nothing. -/
def Obligations.NothingPresentedChangesNothing : Prop :=
  (∀ s : State, s.inputs = [] → step s = .next s) ∧
  (∀ (s : State) (p : PortInput) (rest : List PortInput), s.inputs = p :: rest → p.rst = false → p.cmd = none →
      p.sampleEn = false → step s = .next { s with inputs := rest })

/-! ### The commands -/

/-- 40_config_commands.md R80: SETFD writes the requested period, the countdown and its remainder, answers `ST_OK`,
and changes nothing else; it completes in every state. -/
def Obligations.SetfdRequestsToneAndRestartsCountdown : Prop :=
  ∀ (hz ms : Nat) (s : State), FitsU32 hz → FitsU32 ms →
    ∃ t : State, exec (.setfd hz ms) s = .next t ∧
      t.newPeriodNs.toNat = (if hz = 0 then 0 else (2 * 10 ^ 9 + hz) / (2 * hz)) ∧
      t.playoutTimeUs.toNat = 1000 * ms ∧
      t = { s with
        newPeriodNs := t.newPeriodNs, playoutTimeUs := t.playoutTimeUs, playoutSoFarNs := 0#32
        outputs := s.outputs ++ [okAnswer] }

/-- R81: SETF does what SETFD does with a duration of 0. -/
def Obligations.SetfRequestsToneIndefinitely : Prop :=
  ∀ (hz : Nat) (s : State), FitsU32 hz →
    exec (.setf hz) s = exec (.setfd hz 0) s ∧
    ∃ t : State, exec (.setf hz) s = .next t ∧
      t.newPeriodNs.toNat = (if hz = 0 then 0 else (2 * 10 ^ 9 + hz) / (2 * hz)) ∧
      t = { s with
        newPeriodNs := t.newPeriodNs, playoutTimeUs := 0#42, playoutSoFarNs := 0#32
        outputs := s.outputs ++ [okAnswer] }

/-- R82: SETV accepts 0 .. 1023 and rejects the rest without saturating; the unsigned test of R62 is the signed one. -/
def Obligations.SetvAcceptsTheRangeAndRejectsTheRest : Prop :=
  ∀ (level : Nat) (s : State), FitsU32 level →
    (level ≤ 1023 ↔ 0 ≤ (BitVec.ofNat 32 level).toInt ∧ (BitVec.ofNat 32 level).toInt ≤ 1023) ∧
    (level ≤ 1023 → ∃ t : State, exec (.setv level) s = .next t ∧ t.amplitude.toNat = level ∧
      t = { s with amplitude := t.amplitude, outputs := s.outputs ++ [okAnswer] }) ∧
    (1023 < level → exec (.setv level) s = .next { s with outputs := s.outputs ++ [invalidAnswer] })

/-- R83: SETB tests the stored size, not the requested one. -/
def Obligations.SetbTestsTheStoredSize : Prop :=
  ∀ (bytes : Int) (s : State), FitsS32 bytes →
    (s.bufferSize.toInt ≤ 0 → exec (.setb bytes) s = .next { s with outputs := s.outputs ++ [invalidAnswer] }) ∧
    (0 < s.bufferSize.toInt → ∃ t : State, exec (.setb bytes) s = .next t ∧ t.bufferSize.toInt = bytes ∧
      t = { s with bufferSize := t.bufferSize, outputs := s.outputs ++ [okAnswer] })

/-- 43_pull.md R140: PULL answers `ST_OK` with `outLen` bytes of OUT in ascending order and changes nothing else; it
completes in every state. -/
def Obligations.PullReturnsTheCommittedBuffer : Prop :=
  ∀ s : State, ∃ data : List Byte,
    exec .pull s =
      .next { s with outputs := s.outputs ++ [.response { status := .ok, len := s.outLen, data := data }] } ∧
    data.length = s.outLen.toNat ∧ ∀ a, a < s.outLen.toNat → data[a]? = some (s.outByte a)

/-- R84: a configuration command completes in every state, halted or not, answers once, pulses nothing, and touches only
the five shared fields. -/
def Obligations.ConfigurationCommandsLeaveTheGeneratorAlone : Prop :=
  ∀ (i : Instr) (s : State), configCommand i = true →
    ∃ (t : State) (r : Response), exec i s = .next t ∧
      t = { s with
        newPeriodNs := t.newPeriodNs, playoutTimeUs := t.playoutTimeUs, playoutSoFarNs := t.playoutSoFarNs
        amplitude := t.amplitude, bufferSize := t.bufferSize, outputs := s.outputs ++ [.response r] }

/-- 30_encoding.md R67: every command, a reserved one too, is answered exactly once in its step; only PULL's answer has a
payload. Status 3 is never produced (R68). -/
def Obligations.EveryCommandIsAnsweredOnce : Prop :=
  ∀ (s : State) (p : PortInput) (rest : List PortInput) (w : CmdWord), s.inputs = p :: rest → p.OnlyCommand w →
    ∃ (t : State) (r : Response), step s = .next t ∧ t.outputs = s.outputs ++ [.response r] ∧ r.status.code ≠ 3#2 ∧
      (w.extractLsb' 64 8 ≠ 0x05#8 → r.len = 0#32 ∧ r.data = []) ∧
      (w.extractLsb' 64 8 = 0x05#8 →
        r.status = .ok ∧ r.len = s.outLen ∧ r.data = (List.range s.outLen.toNat).map s.outByte)

/-- 60_exceptions.md R150: the complete list of causes of InvalidParameter, and its code; nothing is recorded. -/
def Obligations.InvalidParameterHasExactlyTwoCauses : Prop :=
  Status.invalidParameter.code = 1#2 ∧
  ∀ (i : Instr) (s : State), i ≠ .tick →
    ∃ (t : State) (r : Response), exec i s = .next t ∧ t.outputs = s.outputs ++ [.response r] ∧
      (r.status = .invalidParameter ↔
        (∃ level, i = .setv level ∧ 1023 < level) ∨ (∃ bytes, i = .setb bytes ∧ s.bufferSize.toInt ≤ 0)) ∧
      (r.status = .invalidParameter → t = { s with outputs := s.outputs ++ [.response r] })

/-- R152: what an error does to the state: nothing. -/
def Obligations.RejectedCommandsChangeNothing : Prop :=
  ∀ (i : Instr) (s t : State) (r : Response), exec i s = .next t → t.outputs = s.outputs ++ [.response r] →
    r.status ≠ .ok → t = { s with outputs := s.outputs ++ [.response r] }

/-- 43_pull.md R142: two PULLs with no Commit (no pulse) and no reset between them are answered byte for byte alike,
whatever else was performed between them. -/
def Obligations.PullsBetweenCommitsAreIdentical : Prop :=
  ∀ (k : Nat) (s t : State), s.NoReset → run k s = .next t → t.pulses = s.pulses →
    ∃ r : Response, exec .pull s = .next { s with outputs := s.outputs ++ [.response r] } ∧
      exec .pull t = .next { t with outputs := t.outputs ++ [.response r] }

/-! ### TICK -/

/-- 41_oscillator_tick.md R101: TICK is enabled exactly while not halted, and nothing else disables it: its slot is
filled in a state of the machine's invariant. While halted an activation does nothing (30_encoding.md R69): that the model
gives it a step, which changes nothing, is the model's choice (log 11). -/
def Obligations.TickIsEnabledExactlyWhileNotHalted : Prop :=
  (∀ s : State, s.halted = true → exec .tick s = .next s) ∧
  (∀ s : State, s.Inv → s.halted = false →
    ∃ t : State, exec .tick s = .next t ∧
      (t.fillIndex.toNat = s.fillIndex.toNat + 2 ∨
        (s.fillIndex.toNat + 2 = s.fillSize.toNat ∧ t.fillIndex = 0#32 ∧ t.outLen = s.fillSize)))

/-- R103, R104: the phase advances modulo 2^32; at a wrap boundary, and only there, it loses one period, or a pending
period is adopted and it is forced to 0. -/
def Obligations.TickAdvancesWrapsAndSwitches : Prop :=
  ∀ s : State, s.CanTick →
    ∃ t : State, exec .tick s = .next t ∧
      (s.advancedPhase < s.periodNs.toNat → t.periodNs = s.periodNs ∧ t.position.toNat = s.advancedPhase) ∧
      (s.periodNs.toNat ≤ s.advancedPhase → s.periodNs = s.newPeriodNs →
        t.periodNs = s.periodNs ∧ t.position.toNat = s.advancedPhase - s.periodNs.toNat) ∧
      (s.periodNs.toNat ≤ s.advancedPhase → s.periodNs ≠ s.newPeriodNs →
        t.periodNs = s.newPeriodNs ∧ t.position = 0#32)

/-- R102, R105 with the byte order of 20_memory.md R42: a TICK that does not fill the buffer stores the ramp value of
the phase before it, low byte first, in the next slot, and no other byte of either buffer changes. -/
def Obligations.TickStoresTheRampSample : Prop :=
  ∀ s : State, s.CanTick → s.fillIndex.toNat + 2 < s.fillSize.toNat →
    ∃ t : State, exec .tick s = .next t ∧
      t.fillIndex.toNat = s.fillIndex.toNat + 2 ∧ t.fillSize = s.fillSize ∧ t.halted = false ∧
      t.outputs = s.outputs ∧ t.outLen = s.outLen ∧ t.outBuf = s.outBuf ∧
      t.fillByte s.fillIndex.toNat = BitVec.ofNat 8 (s.rampValue % 256) ∧
      t.fillByte (s.fillIndex.toNat + 1) = BitVec.ofNat 8 (s.rampValue / 256 % 256) ∧
      (∀ a, a ≠ s.fillIndex.toNat → a ≠ s.fillIndex.toNat + 1 → t.fillByte a = s.fillByte a) ∧
      ∀ a, t.outByte a = s.outByte a

/-- R106: the TICK that fills the buffer commits it whole, pulses once, and latches the configured size, or halts where
that size is illegal. -/
def Obligations.TickThatFillsTheBufferCommits : Prop :=
  ∀ s : State, s.CanTick → s.fillIndex.toNat + 2 = s.fillSize.toNat →
    ∃ t : State, exec .tick s = .next t ∧
      t.outLen = s.fillSize ∧
      t.outByte s.fillIndex.toNat = BitVec.ofNat 8 (s.rampValue % 256) ∧
      t.outByte (s.fillIndex.toNat + 1) = BitVec.ofNat 8 (s.rampValue / 256 % 256) ∧
      (∀ a, a < s.fillIndex.toNat → t.outByte a = s.fillByte a) ∧
      t.outputs = s.outputs ++ [.pullReq] ∧ t.fillIndex = 0#32 ∧ t.fillBuf = [] ∧
      (LegalSize s.cfg.bufMaxBytes s.bufferSize.toInt →
        (t.fillSize.toNat : Int) = s.bufferSize.toInt ∧ t.halted = false) ∧
      (¬ LegalSize s.cfg.bufMaxBytes s.bufferSize.toInt → t.fillSize = 0#32 ∧ t.halted = true)

/-- 42_playout_timer.md R120: the timer registers after a TICK are those of the rule's loop, run to its end, on the
remainder with the sample period added; while Indefinite they are untouched. -/
def Obligations.TickRunsTheCountdownLoop : Prop :=
  ∀ s : State, s.CanTick → s.playoutSoFarNs.toNat ≤ 1000 → s.samplePeriodNs.toNat ≤ 10 ^ 9 →
    ∃ t : State, exec .tick s = .next t ∧
      (s.playoutTimeUs = 0#42 →
        t.playoutTimeUs = 0#42 ∧ t.playoutSoFarNs = s.playoutSoFarNs ∧ t.newPeriodNs = s.newPeriodNs) ∧
      (s.playoutTimeUs ≠ 0#42 → ∀ fuel : Nat,
        s.playoutSoFarNs.toNat + s.samplePeriodNs.toNat ≤ 1000 * fuel + 1000 →
          countdownLoop fuel
              { timeUs := s.playoutTimeUs.toNat
                soFarNs := s.playoutSoFarNs.toNat + s.samplePeriodNs.toNat
                newPeriodNs := s.newPeriodNs.toNat } =
            { timeUs := t.playoutTimeUs.toNat
              soFarNs := t.playoutSoFarNs.toNat
              newPeriodNs := t.newPeriodNs.toNat })

/-- R121: the closed form of one countdown step and the remainder invariant. -/
def Obligations.CountdownStepHasItsClosedForm : Prop :=
  ∀ s : State, s.CanTick → s.playoutSoFarNs.toNat ≤ 1000 → s.samplePeriodNs.toNat ≤ 10 ^ 9 →
    s.playoutTimeUs ≠ 0#42 →
    ∃ t : State, exec .tick s = .next t ∧ t.playoutSoFarNs.toNat ≤ 1000 ∧
      ∃ k : Nat, k = (s.playoutSoFarNs.toNat + s.samplePeriodNs.toNat - 1) / 1000 ∧
        t.playoutSoFarNs.toNat = s.playoutSoFarNs.toNat + s.samplePeriodNs.toNat - 1000 * k ∧
        t.playoutTimeUs.toNat = s.playoutTimeUs.toNat - min k s.playoutTimeUs.toNat ∧
        (s.playoutTimeUs.toNat ≤ k → t.newPeriodNs = 0#32) ∧
        (k < s.playoutTimeUs.toNat → t.newPeriodNs = s.newPeriodNs)

/-- 10_state.md R26, R30, the column of TICK: a TICK completes, never writes the control registers or the volume, and
writes `newPeriodNs` only to 0. -/
def Obligations.TickWritesOnlyItsOwnRegisters : Prop :=
  ∀ s : State, s.CanTick →
    ∃ t : State, exec .tick s = .next t ∧
      t = { s with
        periodNs := t.periodNs, newPeriodNs := t.newPeriodNs, position := t.position
        playoutTimeUs := t.playoutTimeUs, playoutSoFarNs := t.playoutSoFarNs
        outBuf := t.outBuf, outLen := t.outLen, fillSize := t.fillSize, fillIndex := t.fillIndex
        fillBuf := t.fillBuf, halted := t.halted, outputs := t.outputs, bufGen := t.bufGen } ∧
      (t.newPeriodNs = s.newPeriodNs ∨ t.newPeriodNs = 0#32)

/-- 43_pull.md R141: a pulse comes with each Commit, exactly one, and with nothing else. -/
def Obligations.PulsesAreExactlyTheCommits : Prop :=
  ∀ (i : Instr) (s t : State), exec i s = .next t →
    (i = .tick ∧ s.halted = false ∧ s.fillIndex.toNat + 2 = s.fillSize.toNat → t.pulses = s.pulses + 1) ∧
    (¬ (i = .tick ∧ s.halted = false ∧ s.fillIndex.toNat + 2 = s.fillSize.toNat) →
      t.pulses = s.pulses ∧ t.outBuf = s.outBuf ∧ t.outLen = s.outLen)

/-- 10_state.md R30, R26: every register is written by the operations the access matrix names, and by no other. -/
def Obligations.EachRegisterHasItsWriters : Prop :=
  ∀ (i : Instr) (s t : State), exec i s = .next t →
    t.cfg = s.cfg ∧ t.sampleRate = s.sampleRate ∧ t.samplePeriodNs = s.samplePeriodNs ∧
    (t.amplitude ≠ s.amplitude → ∃ level, i = .setv level) ∧
    (t.bufferSize ≠ s.bufferSize → ∃ bytes, i = .setb bytes) ∧
    ((t.newPeriodNs, t.playoutTimeUs, t.playoutSoFarNs) ≠ (s.newPeriodNs, s.playoutTimeUs, s.playoutSoFarNs) →
      (∃ hz, i = .setf hz) ∨ (∃ hz ms, i = .setfd hz ms) ∨ i = .tick) ∧
    ((t.periodNs, t.position, t.halted, t.fillSize, t.fillIndex, t.fillBuf, t.outLen, t.outBuf) ≠
      (s.periodNs, s.position, s.halted, s.fillSize, s.fillIndex, s.fillBuf, s.outLen, s.outBuf) → i = .tick)

/-! ### The oscillator over several TICKs -/

/-- 41_oscillator_tick.md R107: inside the envelope and not silent the phase stays below the period, and step 2 does not
overflow. -/
def Obligations.PhaseStaysBelowThePeriod : Prop :=
  ∀ s : State, s.InEnvelope → s.CanTick → s.PeriodsInRange → s.periodNs ≠ 0#32 →
    s.position.toNat < s.periodNs.toNat →
    s.position.toNat + s.samplePeriodNs.toNat < 2 ^ 32 ∧
    ∃ t : State, exec .tick s = .next t ∧ (t.periodNs ≠ 0#32 → t.position.toNat < t.periodNs.toNat)

/-- R109: inside the envelope a sample is the quotient itself, below the volume (0 where the volume is 0); between wrap
boundaries samples do not decrease; after a wrap without a switch the next one is that of the kept remainder. -/
def Obligations.RampStaysBelowTheVolumeAndRises : Prop :=
  ∀ s t : State, s.InEnvelope → s.CanTick → s.PeriodsInRange → s.periodNs ≠ 0#32 →
    s.position.toNat < s.periodNs.toNat → exec .tick s = .next t →
    (rampSample s).toNat = s.amplitude.toNat * s.position.toNat / s.periodNs.toNat ∧
    (rampSample s).toNat ≤ s.amplitude.toNat - 1 ∧
    (s.position.toNat + s.samplePeriodNs.toNat < s.periodNs.toNat →
      (rampSample s).toNat ≤ (rampSample t).toNat) ∧
    (s.periodNs.toNat ≤ s.position.toNat + s.samplePeriodNs.toNat → s.periodNs = s.newPeriodNs →
      ∃ r : Nat, r < s.samplePeriodNs.toNat ∧
        r = s.position.toNat + s.samplePeriodNs.toNat - s.periodNs.toNat ∧
        (rampSample t).toNat = s.amplitude.toNat * r / s.periodNs.toNat)

/-- R108 item 1: while silent the value of `position` cannot be observed: two machines that differ only in it show the
same outputs for ever. -/
def Obligations.PositionIsUnobservableWhileSilent : Prop :=
  ∀ (k : Nat) (s t : State) (pos : Word), s.silent → run k s = .next t →
    ∃ t' : State, run k { s with position := pos } = .next t' ∧
      t'.outputs = t.outputs ∧ t'.genHalted = t.genHalted

/-- R108 item 2: a tone started from silence, timed or not, begins with two zero samples, its phase at exactly 0; the
third is that of one sample period. (The third clause takes the sample period below the new period: otherwise the second
TICK wraps. Not halted, and with a legal configured size, so that a Commit among these TICKs does not halt.) -/
def Obligations.ToneFromSilenceOpensWithTwoZeroSamples : Prop :=
  ∀ s : State, s.Inv → s.halted = false → LegalSize s.cfg.bufMaxBytes s.bufferSize.toInt → s.silent →
    s.newPeriodNs ≠ 0#32 →
    ∃ t u : State, exec .tick s = .next t ∧ exec .tick t = .next u ∧
      rampSample s = 0#16 ∧ t.periodNs = s.newPeriodNs ∧ t.position = 0#32 ∧ rampSample t = 0#16 ∧
      (s.samplePeriodNs.toNat < s.newPeriodNs.toNat →
        (rampSample u).toNat = s.amplitude.toNat * s.samplePeriodNs.toNat / s.newPeriodNs.toNat)

/-- R110: with a period below the sample period every TICK is a wrap boundary: a pending period is adopted at once, and
without one the phase grows by the difference. -/
def Obligations.AboveTheSampleRateEveryTickWraps : Prop :=
  ∀ s : State, s.CanTick → 0 < s.periodNs.toNat → s.periodNs.toNat < s.samplePeriodNs.toNat →
    s.position.toNat + s.samplePeriodNs.toNat < 2 ^ 32 →
    ∃ t : State, exec .tick s = .next t ∧
      (s.switchPending → t.periodNs = s.newPeriodNs ∧ t.position = 0#32) ∧
      (¬ s.switchPending → t.periodNs = s.periodNs ∧
        t.position.toNat = s.position.toNat + (s.samplePeriodNs.toNat - s.periodNs.toNat))

/-- 70_reset_and_hazards.md R181: with a sample period of 0 phase and timer never advance, and a pending period is
never adopted. -/
def Obligations.WithoutASamplePeriodNothingAdvances : Prop :=
  ∀ s : State, s.CanTick → s.samplePeriodNs = 0#32 → s.position.toNat < s.periodNs.toNat →
    s.playoutSoFarNs.toNat ≤ 1000 →
    ∃ t : State, exec .tick s = .next t ∧ t.position = s.position ∧ t.periodNs = s.periodNs ∧
      t.newPeriodNs = s.newPeriodNs ∧ t.playoutTimeUs = s.playoutTimeUs ∧ t.playoutSoFarNs = s.playoutSoFarNs

/-- 41_oscillator_tick.md R106, R112: from any point of a buffer, the TICKs up to the last of its `fillSize div 2` slots
commit nothing, and that one commits it. -/
def Obligations.BufferCompletesAfterItsRemainingSlots : Prop :=
  ∀ s : State, s.Inv → s.halted = false →
    (∀ m : Nat, 2 * m < s.fillSize.toNat - s.fillIndex.toNat →
      ∃ t : State, ticks m s = .next t ∧ t.outputs = s.outputs ∧ t.outBuf = s.outBuf ∧ t.outLen = s.outLen ∧
        t.fillIndex.toNat = s.fillIndex.toNat + 2 * m) ∧
    ∃ t : State, ticks ((s.fillSize.toNat - s.fillIndex.toNat) / 2) s = .next t ∧
      t.outputs = s.outputs ++ [.pullReq] ∧ t.outLen = s.fillSize ∧ t.fillIndex = 0#32

/-- 41_oscillator_tick.md R113: inside the envelope a pending period is adopted within
`ceil(periodNs / samplePeriodNs)` TICKs, with the phase at 0, and until then the old period is rendered. Where the timer
runs it may replace the pending period by 0 first (42_playout_timer.md R124 item 2), and then that is adopted. (The
configured size is legal, so that no Commit halts.) -/
def Obligations.PendingPeriodIsAdoptedWithinOneCycle : Prop :=
  ∀ s : State, s.Inv → s.InEnvelope → LegalSize s.cfg.bufMaxBytes s.bufferSize.toInt →
    s.switchPending → s.periodNs ≠ 0#32 →
    ∃ n : Nat, 1 ≤ n ∧
      n ≤ (s.periodNs.toNat + s.samplePeriodNs.toNat - 1) / s.samplePeriodNs.toNat ∧
      (∀ m : Nat, m < n → ∃ t : State, ticks m s = .next t ∧ t.periodNs = s.periodNs ∧
        t.position.toNat = s.position.toNat + m * s.samplePeriodNs.toNat ∧
        (t.newPeriodNs = s.newPeriodNs ∨ s.timed ∧ ¬ t.timed ∧ t.newPeriodNs = 0#32)) ∧
      ∃ t u : State, ticks (n - 1) s = .next t ∧ exec .tick t = .next u ∧ u.periodNs = t.newPeriodNs ∧
        u.position = 0#32

/-- 42_playout_timer.md R123: after SETFD with a duration of `d` > 0 ms, with no further SETF or SETFD, whatever else is
performed between the TICKs: the countdown after `n` TICKs is the rule's, and it expires in TICK
`(10^6 * d) div samplePeriodNs + 1` and in none before (and stays expired, R125). It is said of a generator that has not
halted, which one started with a legal configured size and given only legal ones does not. -/
def Obligations.TimedToneExpiresInItsTick : Prop :=
  ∀ (s t : State) (hz d : Nat) (fs : List Fetched), s.Inv → 1 ≤ s.samplePeriodNs.toNat → FitsU32 hz → FitsU32 d →
    0 < d → exec (.setfd hz d) s = .next t → NoFrequencyCommand fs →
    ∃ u : State, performAll fs t = .next u ∧
      (s.halted = false → LegalSize s.cfg.bufMaxBytes s.bufferSize.toInt →
        RequestsLegalSizes s.cfg.bufMaxBytes fs → u.halted = false) ∧
      (u.halted = false →
        (tickCount fs ≤ 10 ^ 6 * d / s.samplePeriodNs.toNat →
          u.playoutTimeUs.toNat = 1000 * d - (tickCount fs * s.samplePeriodNs.toNat - 1) / 1000 ∧
          u.playoutSoFarNs.toNat = tickCount fs * s.samplePeriodNs.toNat -
            1000 * ((tickCount fs * s.samplePeriodNs.toNat - 1) / 1000) ∧
          0 < u.playoutTimeUs.toNat ∧ u.newPeriodNs = t.newPeriodNs) ∧
        (10 ^ 6 * d / s.samplePeriodNs.toNat < tickCount fs → u.playoutTimeUs = 0#42 ∧ u.newPeriodNs = 0#32))

/-- 70_reset_and_hazards.md R173: after reset, for any parameters and any rate, with no command: every TICK stores 0, the
oscillator stays silent, and every `BUFSZ_DEFAULT div 2` TICKs a buffer of zeros is committed with a pulse. -/
def Obligations.SilentMachineKeepsCommittingZeros : Prop :=
  ∀ (cfg : Config) (strap : Word) (n : Nat), LegalConfig cfg → strap ≠ 0#32 →
    ∃ t : State, ticks n (State.resetOf cfg strap) = .next t ∧
      t.periodNs = 0#32 ∧ rampSample t = 0#16 ∧ t.playoutTimeUs = 0#42 ∧
      t.pulses = n / (cfg.bufszDefault / 2) ∧ t.fillIndex.toNat = 2 * (n % (cfg.bufszDefault / 2)) ∧
      (t.outLen.toNat = if n < cfg.bufszDefault / 2 then 0 else cfg.bufszDefault) ∧
      ∀ a, a < t.outLen.toNat → t.outByte a = 0#8

/-! ### Halting, and what holds of every step -/

/-- 10_state.md R24, 60_exceptions.md R160: a halted machine answers every step but a reset, stays halted, keeps the
committed buffer and pulses no more. -/
def Obligations.OnlyResetLeavesTheHaltedState : Prop :=
  ∀ (s : State) (p : PortInput) (rest : List PortInput), s.halted = true → s.inputs = p :: rest → p.rst = false →
    ∃ t : State, step s = .next t ∧ t.halted = true ∧ t.genHalted = true ∧ t.outBuf = s.outBuf ∧
      t.outLen = s.outLen ∧ t.pulses = s.pulses ∧ t.periodNs = s.periodNs ∧ t.position = s.position

/-- R185: once the stored size is not positive it stays as it is until a reset, whatever is performed: every SETB is
rejected, and the next Commit halts the generator. -/
def Obligations.CorruptBufferSizeIsAOneWayTrap : Prop :=
  ∀ (k : Nat) (s t : State), s.bufferSize.toInt ≤ 0 → s.NoReset → run k s = .next t →
    t.bufferSize = s.bufferSize ∧
    (∀ bytes : Int, exec (.setb bytes) t = .next { t with outputs := t.outputs ++ [invalidAnswer] }) ∧
    (t.CanTick → t.fillIndex.toNat + 2 = t.fillSize.toNat → ∃ u : State, exec .tick t = .next u ∧ u.halted = true)

/-- The reset state of every allowed machine meets the invariant of R29. -/
def Obligations.ResetMeetsTheInvariant : Prop :=
  ∀ (cfg : Config) (strap : Word), LegalConfig cfg → strap ≠ 0#32 → (State.resetOf cfg strap).Inv

/-- 10_state.md R29: the invariant is kept by every step, from every state that has it. -/
def Obligations.EveryStepKeepsTheInvariant : Prop :=
  ∀ s t : State, s.Inv → step s = .next t → t.Inv

/-- 60_exceptions.md R153: from a state of the invariant no step faults; only a reset with the strap at 0 does not
answer a next state. -/
def Obligations.NoStepFaultsUnderTheInvariant : Prop :=
  ∀ s : State, s.Inv → (∀ p rest, s.inputs = p :: rest → p.rst = true → p.sampleRate ≠ 0#32) →
    ∃ t : State, step s = .next t

/-- Every step keeps both buffers in canonical form, from every state that has it. -/
def Obligations.EveryStepKeepsTheMemoriesCanonical : Prop :=
  ∀ s t : State, s.MemoriesCanonical → step s = .next t → t.MemoriesCanonical

/-- 10_state.md R22, R23, R51: every step keeps it that FILL lists exactly the bytes stored since the last Commit and OUT
exactly the committed buffer; so no byte without a defined value is ever committed or pulled. -/
def Obligations.EveryStepKeepsTheBuffersWritten : Prop :=
  ∀ s t : State, LegalConfig s.cfg → s.BuffersShaped → s.BuffersWritten → step s = .next t →
    t.BuffersShaped ∧ t.BuffersWritten

/-! ### The silent oscillator -/

/-- 41_oscillator_tick.md R108 item 3, the step: from every silent state with no tone requested, whatever the timer, whose
buffers hold only stored bytes, all zero, a TICK stores 0 and gives such a state, a Commit and a halt included. -/
def Obligations.SilentTickStoresZeroAndStaysSilent : Prop :=
  ∀ s : State, s.CanTick → s.BuffersWritten → s.SilentWithZeros →
    ∃ t : State, exec .tick s = .next t ∧ rampSample s = 0#16 ∧ t.BuffersWritten ∧ t.SilentWithZeros

/-- R108 item 3: a silent oscillator with no tone requested stays silent for ever: whatever commands but SETF and SETFD,
and whatever TICKs, are performed, every buffer committed is one of zeros. -/
def Obligations.SilentOscillatorStaysSilentForEver : Prop :=
  ∀ (s : State) (fs : List Fetched), s.Inv → s.SilentWithZeros → NoFrequencyCommand fs →
    ∃ u : State, performAll fs s = .next u ∧ u.SilentWithZeros ∧ rampSample u = 0#16 ∧
      ∀ a, a < u.outLen.toNat → u.outByte a = 0#8
end

