-- ==== Sys2Proof/Laws/Encoding.lean ====
section
/-! SUPPORT. The fields of a command word (30_encoding.md R60): what is put together comes apart again, and every word
is put together from its fields. -/

namespace Sys2Proof

theorem opField_commandWord (op : BitVec 8) (a1 a0 : Word) : opField (commandWord op a1 a0) = op := by
  show BitVec.extractLsb' 64 8 ((op ++ a1 : BitVec (8 + 32)) ++ a0 : BitVec (8 + 32 + 32)) = op
  ext i hi
  simp only [BitVec.getElem_extractLsb', BitVec.getLsbD_append]
  rw [if_neg (by omega), if_neg (by omega), show 64 + i - 32 - 32 = i by omega]
  simp [BitVec.getLsbD_eq_getElem, hi]

theorem arg1Field_commandWord (op : BitVec 8) (a1 a0 : Word) : arg1Field (commandWord op a1 a0) = a1 := by
  show BitVec.extractLsb' 32 32 ((op ++ a1 : BitVec (8 + 32)) ++ a0 : BitVec (8 + 32 + 32)) = a1
  ext i hi
  simp only [BitVec.getElem_extractLsb', BitVec.getLsbD_append]
  rw [if_neg (by omega), if_pos (by omega), show 32 + i - 32 = i by omega]
  simp [BitVec.getLsbD_eq_getElem, hi]

theorem arg0Field_commandWord (op : BitVec 8) (a1 a0 : Word) : arg0Field (commandWord op a1 a0) = a0 := by
  show BitVec.extractLsb' 0 32 ((op ++ a1 : BitVec (8 + 32)) ++ a0 : BitVec (8 + 32 + 32)) = a0
  ext i hi
  simp only [BitVec.getElem_extractLsb', BitVec.getLsbD_append]
  rw [if_pos (by omega)]
  simp [BitVec.getLsbD_eq_getElem, hi]

/-- Every word is put together from its three fields. -/
theorem commandWord_fields (w : CmdWord) : commandWord (opField w) (arg1Field w) (arg0Field w) = w := by
  show (((BitVec.extractLsb' 64 8 w ++ BitVec.extractLsb' 32 32 w : BitVec (8 + 32)) ++
    BitVec.extractLsb' 0 32 w : BitVec (8 + 32 + 32))) = w
  ext i hi
  rw [BitVec.getElem_append]
  split
  · simp [BitVec.getElem_extractLsb', BitVec.getLsbD_eq_getElem, hi]
  · rw [BitVec.getElem_append]
    split
    · simp only [BitVec.getElem_extractLsb']
      rw [show 32 + (i - 32) = i by omega, BitVec.getLsbD_eq_getElem hi]
    · simp only [BitVec.getElem_extractLsb']
      rw [show 64 + (i - 32 - 32) = i by omega, BitVec.getLsbD_eq_getElem hi]

/-- The decoder on a word put together from its fields (R61, R65, R66). -/
theorem decode_commandWord (op : BitVec 8) (a1 a0 : Word) :
    decode (.command (commandWord op a1 a0)) =
      if op = opSetf then .instr (.setf a0.toNat)
      else if op = opSetfd then .instr (.setfd a0.toNat a1.toNat)
      else if op = opSetv then .instr (.setv a0.toNat)
      else if op = opSetb then .instr (.setb a0.toInt)
      else if op = opPull then .instr .pull
      else .reserved op := by
  simp only [decode, decodeCommand, opField_commandWord, arg1Field_commandWord, arg0Field_commandWord]

end Sys2Proof
end

