-- ==== Sys2Proof/Laws/Memory.lean ====
section
/-! SUPPORT. The laws of the two buffer spaces (20_memory.md R40 to R45): reading after writing, and that every
operation keeps the canonical form. -/

namespace Sys2Proof.Machine

theorem Memory.read_write_same (m : Memory) (k : Nat) (v : Byte) : (m.write k v).read k = some v := by
  induction m with
  | nil => simp [Memory.write, Memory.read]
  | cons c m ih =>
    obtain ⟨a, b⟩ := c
    unfold Memory.write
    split
    · simp [Memory.read]
    · split
      · simp [Memory.read]
      · rename_i hne
        simp [Memory.read, Ne.symm hne, ih]

theorem Memory.read_write_other (m : Memory) (k j : Nat) (v : Byte) (h : j ≠ k) :
    (m.write k v).read j = m.read j := by
  induction m with
  | nil => simp [Memory.write, Memory.read, Ne.symm h]
  | cons c m ih =>
    obtain ⟨a, b⟩ := c
    unfold Memory.write
    split
    · simp [Memory.read, Ne.symm h]
    · split
      · rename_i ha
        subst ha
        simp [Memory.read, Ne.symm h]
      · simp [Memory.read, ih]

theorem Memory.read_write16_low (m : Memory) (a : Nat) (v : Sample) :
    (m.write16 a v).read a = some v.lowByte := by
  rw [Memory.write16, Memory.read_write_other _ _ _ _ (by omega), Memory.read_write_same]

theorem Memory.read_write16_high (m : Memory) (a : Nat) (v : Sample) :
    (m.write16 a v).read (a + 1) = some v.highByte := by
  rw [Memory.write16, Memory.read_write_same]

theorem Memory.read_write16_other (m : Memory) (a j : Nat) (v : Sample) (h : j ≠ a) (h' : j ≠ a + 1) :
    (m.write16 a v).read j = m.read j := by
  rw [Memory.write16, Memory.read_write_other _ _ _ _ h', Memory.read_write_other _ _ _ _ h]

/-- An offset listed after a write is the written one or was listed before. -/
theorem Memory.mem_write (m : Memory) (k : Nat) (v : Byte) (c : Host.Cell) (h : c ∈ m.write k v) :
    c = (k, v) ∨ c ∈ m := by
  induction m with
  | nil => simpa [Memory.write] using h
  | cons d m ih =>
    obtain ⟨a, b⟩ := d
    unfold Memory.write at h
    split at h
    · simpa using h
    · split at h
      · rcases List.mem_cons.1 h with h | h
        · exact .inl h
        · exact .inr (List.mem_cons_of_mem _ h)
      · rcases List.mem_cons.1 h with h | h
        · exact .inr (h ▸ List.mem_cons_self)
        · rcases ih h with h | h
          · exact .inl h
          · exact .inr (List.mem_cons_of_mem _ h)

/-- A write keeps the canonical form. -/
theorem Memory.write_wf (m : Memory) (k : Nat) (v : Byte) (h : Memory.wf m) : Memory.wf (m.write k v) := by
  induction m with
  | nil => simp [Memory.write, Memory.wf]
  | cons d m ih =>
    obtain ⟨a, b⟩ := d
    have hd := List.pairwise_cons.1 h
    unfold Memory.write
    split
    · rename_i hk
      refine List.pairwise_cons.2 ⟨fun c hc => ?_, h⟩
      rcases List.mem_cons.1 hc with rfl | hc
      · exact hk
      · exact Nat.lt_trans hk (hd.1 c hc)
    · split
      · rename_i _ hk
        subst hk
        exact List.pairwise_cons.2 hd
      · rename_i hlt hne
        refine List.pairwise_cons.2 ⟨fun c hc => ?_, ih hd.2⟩
        rcases Memory.mem_write m k v c hc with rfl | hc
        · show a < k
          omega
        · exact hd.1 c hc

/-- A sample store keeps the canonical form. -/
theorem Memory.write16_wf (m : Memory) (a : Nat) (v : Sample) (h : Memory.wf m) : Memory.wf (m.write16 a v) :=
  Memory.write_wf _ _ _ (Memory.write_wf _ _ _ h)

/-- A committed buffer is in canonical form. -/
theorem Memory.copyOf_wf (m : Memory) (free : Nat → Byte) (n : Nat) : Memory.wf (m.copyOf free n) := by
  simpa [Memory.wf, Memory.copyOf, List.pairwise_map] using List.pairwise_lt_range (n := n)

theorem Memory.read_map_pair (f : Nat → Byte) (l : List Nat) (a : Nat) :
    Memory.read (l.map (fun i => (i, f i))) a = if a ∈ l then some (f a) else none := by
  induction l with
  | nil => rfl
  | cons x l ih =>
    by_cases hx : x = a
    · simp [Memory.read, hx]
    · simp [Memory.read, hx, ih, Ne.symm hx]

/-- Below the copied length a committed buffer reads as what was copied, whatever its own free bytes are. -/
theorem Memory.byteAt_copyOf (m : Memory) (free free' : Nat → Byte) (n a : Nat) (h : a < n) :
    (m.copyOf free n).byteAt free' a = m.byteAt free a := by
  simp [Memory.byteAt, Memory.copyOf, Memory.read_map_pair, h]

theorem Memory.copyOf_offsets (m : Memory) (free : Nat → Byte) (n : Nat) :
    (m.copyOf free n).map Prod.fst = List.range n := by
  simp [Memory.copyOf, Function.comp_def]

/-- A write just past the listed offsets 0 .. n-1 lists offset n as well. -/
theorem Memory.write_offsets_append (m : Memory) (n : Nat) (v : Byte) (h : ∀ c ∈ m, c.1 < n) :
    m.write n v = m ++ [(n, v)] := by
  induction m with
  | nil => rfl
  | cons d m ih =>
    obtain ⟨a, b⟩ := d
    have ha : a < n := h (a, b) List.mem_cons_self
    simp [Memory.write, show ¬ n < a by omega, show n ≠ a by omega,
      ih (fun c hc => h c (List.mem_cons_of_mem _ hc))]

/-- The next slot of a buffer whose first `n` bytes are written: two more bytes are (R41). -/
theorem Memory.write16_offsets (m : Memory) (n : Nat) (v : Sample) (h : m.map Prod.fst = List.range n) :
    (m.write16 n v).map Prod.fst = List.range (n + 2) := by
  have hlt : ∀ c ∈ m, c.1 < n := fun c hc => by
    have : c.1 ∈ List.range n := h ▸ List.mem_map_of_mem hc
    simpa using this
  rw [Memory.write16, Memory.write_offsets_append m n _ hlt, Memory.write_offsets_append]
  · simp [h, List.range_succ]
  · intro c hc
    rcases List.mem_append.1 hc with hc | hc
    · exact Nat.lt_succ_of_lt (hlt c hc)
    · simp at hc
      subst hc
      exact Nat.lt_succ_self n

/-- Offsets 0 .. n-1 in order are a canonical form. -/
theorem Memory.wf_of_offsets (m : Memory) (n : Nat) (h : m.map Prod.fst = List.range n) : Memory.wf m := by
  have : (m.map Prod.fst).Pairwise (· < ·) := h ▸ List.pairwise_lt_range
  simpa [Memory.wf, List.pairwise_map] using this

end Sys2Proof.Machine
end

