-- ==== Sys2Proof/Laws/Operands.lean ====
section
/-! SUPPORT. Bounds of the operand conversions (30_encoding.md R63, 10_state.md R18): no register they are written to
truncates them. -/

namespace Sys2Proof.Machine

theorem hzToPeriodNs_zero : hzToPeriodNs 0 = 0 := rfl

theorem hzToPeriodNs_pos (hz : Nat) (h : 0 < hz) : hzToPeriodNs hz = (2 * 10 ^ 9 + hz) / (2 * hz) := by
  simp [hzToPeriodNs, Nat.pos_iff_ne_zero.1 h]

theorem hzToPeriodNs_le (hz : Nat) : hzToPeriodNs hz ≤ 10 ^ 9 := by
  unfold hzToPeriodNs
  split
  · omega
  · rename_i h
    have h1 : 1 ≤ hz := Nat.pos_of_ne_zero h
    rw [Nat.div_le_iff_le_mul_add_pred (by omega)]
    omega

theorem hzToPeriodNs_toNat (hz : Nat) : (BitVec.ofNat 32 (hzToPeriodNs hz)).toNat = hzToPeriodNs hz := by
  have := hzToPeriodNs_le hz
  simp only [BitVec.toNat_ofNat]
  omega

theorem msToUs_toNat (ms : Nat) (h : ms < 2 ^ 32) : (BitVec.ofNat 42 (msToUs ms)).toNat = 1000 * ms := by
  simp only [msToUs, BitVec.toNat_ofNat]
  omega

theorem samplePeriodOf_toNat (rate : Word) : (samplePeriodOf rate).toNat = 10 ^ 9 / rate.toNat := by
  have : 10 ^ 9 / rate.toNat ≤ 10 ^ 9 := Nat.div_le_self ..
  rw [samplePeriodOf, BitVec.toNat_ofNat]
  exact Nat.mod_eq_of_lt (by omega)

theorem samplePeriodOf_le (rate : Word) : (samplePeriodOf rate).toNat ≤ 10 ^ 9 := by
  rw [samplePeriodOf_toNat]
  exact Nat.div_le_self ..

/-- A legal size that a signed register holds is the same number unsigned (R106: `fillSize <- bufferSize`). -/
theorem legalSize_toNat (maxBytes : Nat) (v : Word) (h : LegalSize maxBytes v.toInt) :
    LegalSize maxBytes v.toNat ∧ v.toInt = v.toNat ∧ v.toNat < 2 ^ 31 := by
  have hv : v.toInt = v.toNat := by
    have h2 := h.1
    have hw := v.isLt
    rw [BitVec.toInt_eq_toNat_cond] at h2 ⊢
    split at h2
    · rw [if_pos ‹_›]
    · omega
  have hlt : v.toNat < 2 ^ 31 := by
    have := BitVec.toInt_lt (x := v)
    omega
  exact ⟨hv ▸ h, hv, hlt⟩

end Sys2Proof.Machine
end

