-- ==== Sys2Proof/Laws/PerInstr.lean ====
section
/-! SUPPORT. The statements made instruction by instruction, as syntax: the encoding of each operation lies in its own
row of spec/opcode_table.json (match and mask). -/

namespace Sys2Proof.Laws.EncodesItsRow

/-- The row's mask of every command: the `op` byte only (30_encoding.md R65). -/
def rowMask : CmdWord := 0xFF0000000000000000#72

/-- The encoding of a command, masked, is its row's match; TICK is the strobe's one bit. -/
def Statement (i : Instr) : Prop :=
  match i with
  | .setf _ => ∃ w, encode i = .command w ∧ w &&& rowMask = 0x010000000000000000#72
  | .setfd _ _ => ∃ w, encode i = .command w ∧ w &&& rowMask = 0x020000000000000000#72
  | .setv _ => ∃ w, encode i = .command w ∧ w &&& rowMask = 0x030000000000000000#72
  | .setb _ => ∃ w, encode i = .command w ∧ w &&& rowMask = 0x040000000000000000#72
  | .pull => ∃ w, encode i = .command w ∧ w &&& rowMask = 0x050000000000000000#72
  | .tick => encode i = .strobe 1#1

/-- The mask keeps the `op` byte and nothing else. -/
theorem commandWord_masked (op : BitVec 8) (a1 a0 : Word) :
    commandWord op a1 a0 &&& rowMask = commandWord op 0#32 0#32 := by
  have h1 : rowMask = commandWord 0xFF#8 0#32 0#32 := by decide
  rw [h1, commandWord, commandWord, commandWord, BitVec.and_append, BitVec.and_append,
    show (0xFF#8 : BitVec 8) = BitVec.allOnes 8 from rfl, BitVec.and_allOnes]
  simp

theorem setf (hz : Nat) : Statement (.setf hz) :=
  ⟨_, rfl, (commandWord_masked ..).trans (by decide)⟩

theorem setfd (hz ms : Nat) : Statement (.setfd hz ms) :=
  ⟨_, rfl, (commandWord_masked ..).trans (by decide)⟩

theorem setv (level : Nat) : Statement (.setv level) :=
  ⟨_, rfl, (commandWord_masked ..).trans (by decide)⟩

theorem setb (bytes : Int) : Statement (.setb bytes) :=
  ⟨_, rfl, (commandWord_masked ..).trans (by decide)⟩

theorem pull : Statement .pull :=
  ⟨_, rfl, by decide⟩

theorem tick : Statement .tick := rfl

end Sys2Proof.Laws.EncodesItsRow
end

