-- ==== Sys2Proof/Laws/State.lean ====
section
/-! SUPPORT. One lemma per field per update: what each shared operation leaves in each register (10_state.md R26), so
that no later proof unfolds a record update. -/

namespace Sys2Proof.Machine

section respond

@[simp] theorem respond_cfg (st : Status) (n : Word) (d : List Byte) (s : State) :
    (respond st n d s).cfg = s.cfg :=
  rfl
@[simp] theorem respond_sampleRate (st : Status) (n : Word) (d : List Byte) (s : State) :
    (respond st n d s).sampleRate = s.sampleRate :=
  rfl
@[simp] theorem respond_samplePeriodNs (st : Status) (n : Word) (d : List Byte) (s : State) :
    (respond st n d s).samplePeriodNs = s.samplePeriodNs :=
  rfl
@[simp] theorem respond_bufferSize (st : Status) (n : Word) (d : List Byte) (s : State) :
    (respond st n d s).bufferSize = s.bufferSize :=
  rfl
@[simp] theorem respond_amplitude (st : Status) (n : Word) (d : List Byte) (s : State) :
    (respond st n d s).amplitude = s.amplitude :=
  rfl
@[simp] theorem respond_periodNs (st : Status) (n : Word) (d : List Byte) (s : State) :
    (respond st n d s).periodNs = s.periodNs :=
  rfl
@[simp] theorem respond_newPeriodNs (st : Status) (n : Word) (d : List Byte) (s : State) :
    (respond st n d s).newPeriodNs = s.newPeriodNs :=
  rfl
@[simp] theorem respond_position (st : Status) (n : Word) (d : List Byte) (s : State) :
    (respond st n d s).position = s.position :=
  rfl
@[simp] theorem respond_playoutTimeUs (st : Status) (n : Word) (d : List Byte) (s : State) :
    (respond st n d s).playoutTimeUs = s.playoutTimeUs :=
  rfl
@[simp] theorem respond_playoutSoFarNs (st : Status) (n : Word) (d : List Byte) (s : State) :
    (respond st n d s).playoutSoFarNs = s.playoutSoFarNs :=
  rfl
@[simp] theorem respond_outBuf (st : Status) (n : Word) (d : List Byte) (s : State) :
    (respond st n d s).outBuf = s.outBuf :=
  rfl
@[simp] theorem respond_outLen (st : Status) (n : Word) (d : List Byte) (s : State) :
    (respond st n d s).outLen = s.outLen :=
  rfl
@[simp] theorem respond_fillSize (st : Status) (n : Word) (d : List Byte) (s : State) :
    (respond st n d s).fillSize = s.fillSize :=
  rfl
@[simp] theorem respond_fillIndex (st : Status) (n : Word) (d : List Byte) (s : State) :
    (respond st n d s).fillIndex = s.fillIndex :=
  rfl
@[simp] theorem respond_fillBuf (st : Status) (n : Word) (d : List Byte) (s : State) :
    (respond st n d s).fillBuf = s.fillBuf :=
  rfl
@[simp] theorem respond_halted (st : Status) (n : Word) (d : List Byte) (s : State) :
    (respond st n d s).halted = s.halted :=
  rfl
@[simp] theorem respond_inputs (st : Status) (n : Word) (d : List Byte) (s : State) :
    (respond st n d s).inputs = s.inputs :=
  rfl
@[simp] theorem respond_outputs (st : Status) (n : Word) (d : List Byte) (s : State) :
    (respond st n d s).outputs = s.outputs ++ [.response { status := st, len := n, data := d }] :=
  rfl
@[simp] theorem respond_arbCount (st : Status) (n : Word) (d : List Byte) (s : State) :
    (respond st n d s).arbCount = s.arbCount :=
  rfl
@[simp] theorem respond_bufGen (st : Status) (n : Word) (d : List Byte) (s : State) :
    (respond st n d s).bufGen = s.bufGen :=
  rfl

end respond

section emitPullReq

@[simp] theorem emitPullReq_cfg (s : State) : (emitPullReq s).cfg = s.cfg := rfl
@[simp] theorem emitPullReq_sampleRate (s : State) : (emitPullReq s).sampleRate = s.sampleRate := rfl
@[simp] theorem emitPullReq_samplePeriodNs (s : State) : (emitPullReq s).samplePeriodNs = s.samplePeriodNs := rfl
@[simp] theorem emitPullReq_bufferSize (s : State) : (emitPullReq s).bufferSize = s.bufferSize := rfl
@[simp] theorem emitPullReq_amplitude (s : State) : (emitPullReq s).amplitude = s.amplitude := rfl
@[simp] theorem emitPullReq_periodNs (s : State) : (emitPullReq s).periodNs = s.periodNs := rfl
@[simp] theorem emitPullReq_newPeriodNs (s : State) : (emitPullReq s).newPeriodNs = s.newPeriodNs := rfl
@[simp] theorem emitPullReq_position (s : State) : (emitPullReq s).position = s.position := rfl
@[simp] theorem emitPullReq_playoutTimeUs (s : State) : (emitPullReq s).playoutTimeUs = s.playoutTimeUs := rfl
@[simp] theorem emitPullReq_playoutSoFarNs (s : State) : (emitPullReq s).playoutSoFarNs = s.playoutSoFarNs := rfl
@[simp] theorem emitPullReq_outBuf (s : State) : (emitPullReq s).outBuf = s.outBuf := rfl
@[simp] theorem emitPullReq_outLen (s : State) : (emitPullReq s).outLen = s.outLen := rfl
@[simp] theorem emitPullReq_fillSize (s : State) : (emitPullReq s).fillSize = s.fillSize := rfl
@[simp] theorem emitPullReq_fillIndex (s : State) : (emitPullReq s).fillIndex = s.fillIndex := rfl
@[simp] theorem emitPullReq_fillBuf (s : State) : (emitPullReq s).fillBuf = s.fillBuf := rfl
@[simp] theorem emitPullReq_halted (s : State) : (emitPullReq s).halted = s.halted := rfl
@[simp] theorem emitPullReq_inputs (s : State) : (emitPullReq s).inputs = s.inputs := rfl
@[simp] theorem emitPullReq_outputs (s : State) : (emitPullReq s).outputs = s.outputs ++ [.pullReq] := rfl
@[simp] theorem emitPullReq_arbCount (s : State) : (emitPullReq s).arbCount = s.arbCount := rfl
@[simp] theorem emitPullReq_bufGen (s : State) : (emitPullReq s).bufGen = s.bufGen := rfl

end emitPullReq

section handOver

@[simp] theorem handOver_cfg (s : State) : (handOver s).cfg = s.cfg := rfl
@[simp] theorem handOver_sampleRate (s : State) : (handOver s).sampleRate = s.sampleRate := rfl
@[simp] theorem handOver_samplePeriodNs (s : State) : (handOver s).samplePeriodNs = s.samplePeriodNs := rfl
@[simp] theorem handOver_bufferSize (s : State) : (handOver s).bufferSize = s.bufferSize := rfl
@[simp] theorem handOver_amplitude (s : State) : (handOver s).amplitude = s.amplitude := rfl
@[simp] theorem handOver_periodNs (s : State) : (handOver s).periodNs = s.periodNs := rfl
@[simp] theorem handOver_newPeriodNs (s : State) : (handOver s).newPeriodNs = s.newPeriodNs := rfl
@[simp] theorem handOver_position (s : State) : (handOver s).position = s.position := rfl
@[simp] theorem handOver_playoutTimeUs (s : State) : (handOver s).playoutTimeUs = s.playoutTimeUs := rfl
@[simp] theorem handOver_playoutSoFarNs (s : State) : (handOver s).playoutSoFarNs = s.playoutSoFarNs := rfl
@[simp] theorem handOver_outBuf (s : State) :
    (handOver s).outBuf = s.fillBuf.copyOf (Config.freeByte s.bufGen) s.fillSize.toNat :=
  rfl
@[simp] theorem handOver_outLen (s : State) : (handOver s).outLen = s.fillSize := rfl
@[simp] theorem handOver_fillSize (s : State) : (handOver s).fillSize = s.fillSize := rfl
@[simp] theorem handOver_fillIndex (s : State) : (handOver s).fillIndex = s.fillIndex := rfl
@[simp] theorem handOver_fillBuf (s : State) : (handOver s).fillBuf = s.fillBuf := rfl
@[simp] theorem handOver_halted (s : State) : (handOver s).halted = s.halted := rfl
@[simp] theorem handOver_inputs (s : State) : (handOver s).inputs = s.inputs := rfl
@[simp] theorem handOver_outputs (s : State) : (handOver s).outputs = s.outputs ++ [.pullReq] := rfl
@[simp] theorem handOver_arbCount (s : State) : (handOver s).arbCount = s.arbCount := rfl
@[simp] theorem handOver_bufGen (s : State) : (handOver s).bufGen = s.bufGen := rfl

end handOver

section allocateNext

@[simp] theorem allocateNext_cfg (s : State) :
    (allocateNext s).cfg = s.cfg :=
  by unfold allocateNext; split <;> rfl
@[simp] theorem allocateNext_sampleRate (s : State) :
    (allocateNext s).sampleRate = s.sampleRate :=
  by unfold allocateNext; split <;> rfl
@[simp] theorem allocateNext_samplePeriodNs (s : State) :
    (allocateNext s).samplePeriodNs = s.samplePeriodNs :=
  by unfold allocateNext; split <;> rfl
@[simp] theorem allocateNext_bufferSize (s : State) :
    (allocateNext s).bufferSize = s.bufferSize :=
  by unfold allocateNext; split <;> rfl
@[simp] theorem allocateNext_amplitude (s : State) :
    (allocateNext s).amplitude = s.amplitude :=
  by unfold allocateNext; split <;> rfl
@[simp] theorem allocateNext_periodNs (s : State) :
    (allocateNext s).periodNs = s.periodNs :=
  by unfold allocateNext; split <;> rfl
@[simp] theorem allocateNext_newPeriodNs (s : State) :
    (allocateNext s).newPeriodNs = s.newPeriodNs :=
  by unfold allocateNext; split <;> rfl
@[simp] theorem allocateNext_position (s : State) :
    (allocateNext s).position = s.position :=
  by unfold allocateNext; split <;> rfl
@[simp] theorem allocateNext_playoutTimeUs (s : State) :
    (allocateNext s).playoutTimeUs = s.playoutTimeUs :=
  by unfold allocateNext; split <;> rfl
@[simp] theorem allocateNext_playoutSoFarNs (s : State) :
    (allocateNext s).playoutSoFarNs = s.playoutSoFarNs :=
  by unfold allocateNext; split <;> rfl
@[simp] theorem allocateNext_outBuf (s : State) :
    (allocateNext s).outBuf = s.outBuf :=
  by unfold allocateNext; split <;> rfl
@[simp] theorem allocateNext_outLen (s : State) :
    (allocateNext s).outLen = s.outLen :=
  by unfold allocateNext; split <;> rfl
@[simp] theorem allocateNext_fillIndex (s : State) :
    (allocateNext s).fillIndex = 0#32 :=
  by unfold allocateNext; split <;> rfl
@[simp] theorem allocateNext_fillBuf (s : State) :
    (allocateNext s).fillBuf = [] :=
  by unfold allocateNext; split <;> rfl
@[simp] theorem allocateNext_inputs (s : State) :
    (allocateNext s).inputs = s.inputs :=
  by unfold allocateNext; split <;> rfl
@[simp] theorem allocateNext_outputs (s : State) :
    (allocateNext s).outputs = s.outputs :=
  by unfold allocateNext; split <;> rfl
@[simp] theorem allocateNext_arbCount (s : State) :
    (allocateNext s).arbCount = s.arbCount :=
  by unfold allocateNext; split <;> rfl
@[simp] theorem allocateNext_bufGen (s : State) :
    (allocateNext s).bufGen = s.bufGen + 1 :=
  by unfold allocateNext; split <;> rfl

end allocateNext

section requestTone

@[simp] theorem requestTone_cfg (p us : Nat) (s : State) : (requestTone p us s).cfg = s.cfg := rfl
@[simp] theorem requestTone_sampleRate (p us : Nat) (s : State) :
    (requestTone p us s).sampleRate = s.sampleRate :=
  rfl
@[simp] theorem requestTone_samplePeriodNs (p us : Nat) (s : State) :
    (requestTone p us s).samplePeriodNs = s.samplePeriodNs :=
  rfl
@[simp] theorem requestTone_bufferSize (p us : Nat) (s : State) :
    (requestTone p us s).bufferSize = s.bufferSize :=
  rfl
@[simp] theorem requestTone_amplitude (p us : Nat) (s : State) :
    (requestTone p us s).amplitude = s.amplitude :=
  rfl
@[simp] theorem requestTone_periodNs (p us : Nat) (s : State) : (requestTone p us s).periodNs = s.periodNs := rfl
@[simp] theorem requestTone_newPeriodNs (p us : Nat) (s : State) :
    (requestTone p us s).newPeriodNs = BitVec.ofNat 32 p :=
  rfl
@[simp] theorem requestTone_position (p us : Nat) (s : State) : (requestTone p us s).position = s.position := rfl
@[simp] theorem requestTone_playoutTimeUs (p us : Nat) (s : State) :
    (requestTone p us s).playoutTimeUs = BitVec.ofNat 42 us :=
  rfl
@[simp] theorem requestTone_playoutSoFarNs (p us : Nat) (s : State) :
    (requestTone p us s).playoutSoFarNs = 0#32 :=
  rfl
@[simp] theorem requestTone_outBuf (p us : Nat) (s : State) : (requestTone p us s).outBuf = s.outBuf := rfl
@[simp] theorem requestTone_outLen (p us : Nat) (s : State) : (requestTone p us s).outLen = s.outLen := rfl
@[simp] theorem requestTone_fillSize (p us : Nat) (s : State) : (requestTone p us s).fillSize = s.fillSize := rfl
@[simp] theorem requestTone_fillIndex (p us : Nat) (s : State) :
    (requestTone p us s).fillIndex = s.fillIndex :=
  rfl
@[simp] theorem requestTone_fillBuf (p us : Nat) (s : State) : (requestTone p us s).fillBuf = s.fillBuf := rfl
@[simp] theorem requestTone_halted (p us : Nat) (s : State) : (requestTone p us s).halted = s.halted := rfl
@[simp] theorem requestTone_inputs (p us : Nat) (s : State) : (requestTone p us s).inputs = s.inputs := rfl
@[simp] theorem requestTone_outputs (p us : Nat) (s : State) : (requestTone p us s).outputs = s.outputs := rfl
@[simp] theorem requestTone_arbCount (p us : Nat) (s : State) : (requestTone p us s).arbCount = s.arbCount := rfl
@[simp] theorem requestTone_bufGen (p us : Nat) (s : State) : (requestTone p us s).bufGen = s.bufGen := rfl

end requestTone

section advancePhase

@[simp] theorem advancePhase_cfg (s : State) : (advancePhase s).cfg = s.cfg := rfl
@[simp] theorem advancePhase_sampleRate (s : State) : (advancePhase s).sampleRate = s.sampleRate := rfl
@[simp] theorem advancePhase_samplePeriodNs (s : State) : (advancePhase s).samplePeriodNs = s.samplePeriodNs := rfl
@[simp] theorem advancePhase_bufferSize (s : State) : (advancePhase s).bufferSize = s.bufferSize := rfl
@[simp] theorem advancePhase_amplitude (s : State) : (advancePhase s).amplitude = s.amplitude := rfl
@[simp] theorem advancePhase_periodNs (s : State) : (advancePhase s).periodNs = s.periodNs := rfl
@[simp] theorem advancePhase_newPeriodNs (s : State) : (advancePhase s).newPeriodNs = s.newPeriodNs := rfl
@[simp] theorem advancePhase_position (s : State) :
    (advancePhase s).position = s.position + s.samplePeriodNs :=
  rfl
@[simp] theorem advancePhase_playoutTimeUs (s : State) : (advancePhase s).playoutTimeUs = s.playoutTimeUs := rfl
@[simp] theorem advancePhase_playoutSoFarNs (s : State) : (advancePhase s).playoutSoFarNs = s.playoutSoFarNs := rfl
@[simp] theorem advancePhase_outBuf (s : State) : (advancePhase s).outBuf = s.outBuf := rfl
@[simp] theorem advancePhase_outLen (s : State) : (advancePhase s).outLen = s.outLen := rfl
@[simp] theorem advancePhase_fillSize (s : State) : (advancePhase s).fillSize = s.fillSize := rfl
@[simp] theorem advancePhase_fillIndex (s : State) : (advancePhase s).fillIndex = s.fillIndex := rfl
@[simp] theorem advancePhase_fillBuf (s : State) : (advancePhase s).fillBuf = s.fillBuf := rfl
@[simp] theorem advancePhase_halted (s : State) : (advancePhase s).halted = s.halted := rfl
@[simp] theorem advancePhase_inputs (s : State) : (advancePhase s).inputs = s.inputs := rfl
@[simp] theorem advancePhase_outputs (s : State) : (advancePhase s).outputs = s.outputs := rfl
@[simp] theorem advancePhase_arbCount (s : State) : (advancePhase s).arbCount = s.arbCount := rfl
@[simp] theorem advancePhase_bufGen (s : State) : (advancePhase s).bufGen = s.bufGen := rfl

end advancePhase

section wrapAndSwitch

@[simp] theorem wrapAndSwitch_cfg (s : State) :
    (wrapAndSwitch s).cfg = s.cfg :=
  by unfold wrapAndSwitch; split <;> first | rfl | (split <;> rfl)
@[simp] theorem wrapAndSwitch_sampleRate (s : State) :
    (wrapAndSwitch s).sampleRate = s.sampleRate :=
  by unfold wrapAndSwitch; split <;> first | rfl | (split <;> rfl)
@[simp] theorem wrapAndSwitch_samplePeriodNs (s : State) :
    (wrapAndSwitch s).samplePeriodNs = s.samplePeriodNs :=
  by unfold wrapAndSwitch; split <;> first | rfl | (split <;> rfl)
@[simp] theorem wrapAndSwitch_bufferSize (s : State) :
    (wrapAndSwitch s).bufferSize = s.bufferSize :=
  by unfold wrapAndSwitch; split <;> first | rfl | (split <;> rfl)
@[simp] theorem wrapAndSwitch_amplitude (s : State) :
    (wrapAndSwitch s).amplitude = s.amplitude :=
  by unfold wrapAndSwitch; split <;> first | rfl | (split <;> rfl)
@[simp] theorem wrapAndSwitch_newPeriodNs (s : State) :
    (wrapAndSwitch s).newPeriodNs = s.newPeriodNs :=
  by unfold wrapAndSwitch; split <;> first | rfl | (split <;> rfl)
@[simp] theorem wrapAndSwitch_playoutTimeUs (s : State) :
    (wrapAndSwitch s).playoutTimeUs = s.playoutTimeUs :=
  by unfold wrapAndSwitch; split <;> first | rfl | (split <;> rfl)
@[simp] theorem wrapAndSwitch_playoutSoFarNs (s : State) :
    (wrapAndSwitch s).playoutSoFarNs = s.playoutSoFarNs :=
  by unfold wrapAndSwitch; split <;> first | rfl | (split <;> rfl)
@[simp] theorem wrapAndSwitch_outBuf (s : State) :
    (wrapAndSwitch s).outBuf = s.outBuf :=
  by unfold wrapAndSwitch; split <;> first | rfl | (split <;> rfl)
@[simp] theorem wrapAndSwitch_outLen (s : State) :
    (wrapAndSwitch s).outLen = s.outLen :=
  by unfold wrapAndSwitch; split <;> first | rfl | (split <;> rfl)
@[simp] theorem wrapAndSwitch_fillSize (s : State) :
    (wrapAndSwitch s).fillSize = s.fillSize :=
  by unfold wrapAndSwitch; split <;> first | rfl | (split <;> rfl)
@[simp] theorem wrapAndSwitch_fillIndex (s : State) :
    (wrapAndSwitch s).fillIndex = s.fillIndex :=
  by unfold wrapAndSwitch; split <;> first | rfl | (split <;> rfl)
@[simp] theorem wrapAndSwitch_fillBuf (s : State) :
    (wrapAndSwitch s).fillBuf = s.fillBuf :=
  by unfold wrapAndSwitch; split <;> first | rfl | (split <;> rfl)
@[simp] theorem wrapAndSwitch_halted (s : State) :
    (wrapAndSwitch s).halted = s.halted :=
  by unfold wrapAndSwitch; split <;> first | rfl | (split <;> rfl)
@[simp] theorem wrapAndSwitch_inputs (s : State) :
    (wrapAndSwitch s).inputs = s.inputs :=
  by unfold wrapAndSwitch; split <;> first | rfl | (split <;> rfl)
@[simp] theorem wrapAndSwitch_outputs (s : State) :
    (wrapAndSwitch s).outputs = s.outputs :=
  by unfold wrapAndSwitch; split <;> first | rfl | (split <;> rfl)
@[simp] theorem wrapAndSwitch_arbCount (s : State) :
    (wrapAndSwitch s).arbCount = s.arbCount :=
  by unfold wrapAndSwitch; split <;> first | rfl | (split <;> rfl)
@[simp] theorem wrapAndSwitch_bufGen (s : State) :
    (wrapAndSwitch s).bufGen = s.bufGen :=
  by unfold wrapAndSwitch; split <;> first | rfl | (split <;> rfl)

end wrapAndSwitch

section withCountdown

@[simp] theorem withCountdown_cfg (s : State) (c : Countdown) : (s.withCountdown c).cfg = s.cfg := rfl
@[simp] theorem withCountdown_sampleRate (s : State) (c : Countdown) :
    (s.withCountdown c).sampleRate = s.sampleRate :=
  rfl
@[simp] theorem withCountdown_samplePeriodNs (s : State) (c : Countdown) :
    (s.withCountdown c).samplePeriodNs = s.samplePeriodNs :=
  rfl
@[simp] theorem withCountdown_bufferSize (s : State) (c : Countdown) :
    (s.withCountdown c).bufferSize = s.bufferSize :=
  rfl
@[simp] theorem withCountdown_amplitude (s : State) (c : Countdown) :
    (s.withCountdown c).amplitude = s.amplitude :=
  rfl
@[simp] theorem withCountdown_periodNs (s : State) (c : Countdown) :
    (s.withCountdown c).periodNs = s.periodNs :=
  rfl
@[simp] theorem withCountdown_newPeriodNs (s : State) (c : Countdown) :
    (s.withCountdown c).newPeriodNs = BitVec.ofNat 32 c.newPeriodNs :=
  rfl
@[simp] theorem withCountdown_position (s : State) (c : Countdown) :
    (s.withCountdown c).position = s.position :=
  rfl
@[simp] theorem withCountdown_playoutTimeUs (s : State) (c : Countdown) :
    (s.withCountdown c).playoutTimeUs = BitVec.ofNat 42 c.timeUs :=
  rfl
@[simp] theorem withCountdown_playoutSoFarNs (s : State) (c : Countdown) :
    (s.withCountdown c).playoutSoFarNs = BitVec.ofNat 32 c.soFarNs :=
  rfl
@[simp] theorem withCountdown_outBuf (s : State) (c : Countdown) : (s.withCountdown c).outBuf = s.outBuf := rfl
@[simp] theorem withCountdown_outLen (s : State) (c : Countdown) : (s.withCountdown c).outLen = s.outLen := rfl
@[simp] theorem withCountdown_fillSize (s : State) (c : Countdown) :
    (s.withCountdown c).fillSize = s.fillSize :=
  rfl
@[simp] theorem withCountdown_fillIndex (s : State) (c : Countdown) :
    (s.withCountdown c).fillIndex = s.fillIndex :=
  rfl
@[simp] theorem withCountdown_fillBuf (s : State) (c : Countdown) : (s.withCountdown c).fillBuf = s.fillBuf := rfl
@[simp] theorem withCountdown_halted (s : State) (c : Countdown) : (s.withCountdown c).halted = s.halted := rfl
@[simp] theorem withCountdown_inputs (s : State) (c : Countdown) : (s.withCountdown c).inputs = s.inputs := rfl
@[simp] theorem withCountdown_outputs (s : State) (c : Countdown) : (s.withCountdown c).outputs = s.outputs := rfl
@[simp] theorem withCountdown_arbCount (s : State) (c : Countdown) :
    (s.withCountdown c).arbCount = s.arbCount :=
  rfl
@[simp] theorem withCountdown_bufGen (s : State) (c : Countdown) : (s.withCountdown c).bufGen = s.bufGen := rfl

end withCountdown

section playoutStep

@[simp] theorem playoutStep_cfg (s : State) : (playoutStep s).cfg = s.cfg := by unfold playoutStep; split <;> rfl
@[simp] theorem playoutStep_sampleRate (s : State) :
    (playoutStep s).sampleRate = s.sampleRate :=
  by unfold playoutStep; split <;> rfl
@[simp] theorem playoutStep_samplePeriodNs (s : State) :
    (playoutStep s).samplePeriodNs = s.samplePeriodNs :=
  by unfold playoutStep; split <;> rfl
@[simp] theorem playoutStep_bufferSize (s : State) :
    (playoutStep s).bufferSize = s.bufferSize :=
  by unfold playoutStep; split <;> rfl
@[simp] theorem playoutStep_amplitude (s : State) :
    (playoutStep s).amplitude = s.amplitude :=
  by unfold playoutStep; split <;> rfl
@[simp] theorem playoutStep_periodNs (s : State) :
    (playoutStep s).periodNs = s.periodNs :=
  by unfold playoutStep; split <;> rfl
@[simp] theorem playoutStep_position (s : State) :
    (playoutStep s).position = s.position :=
  by unfold playoutStep; split <;> rfl
@[simp] theorem playoutStep_outBuf (s : State) :
    (playoutStep s).outBuf = s.outBuf :=
  by unfold playoutStep; split <;> rfl
@[simp] theorem playoutStep_outLen (s : State) :
    (playoutStep s).outLen = s.outLen :=
  by unfold playoutStep; split <;> rfl
@[simp] theorem playoutStep_fillSize (s : State) :
    (playoutStep s).fillSize = s.fillSize :=
  by unfold playoutStep; split <;> rfl
@[simp] theorem playoutStep_fillIndex (s : State) :
    (playoutStep s).fillIndex = s.fillIndex :=
  by unfold playoutStep; split <;> rfl
@[simp] theorem playoutStep_fillBuf (s : State) :
    (playoutStep s).fillBuf = s.fillBuf :=
  by unfold playoutStep; split <;> rfl
@[simp] theorem playoutStep_halted (s : State) :
    (playoutStep s).halted = s.halted :=
  by unfold playoutStep; split <;> rfl
@[simp] theorem playoutStep_inputs (s : State) :
    (playoutStep s).inputs = s.inputs :=
  by unfold playoutStep; split <;> rfl
@[simp] theorem playoutStep_outputs (s : State) :
    (playoutStep s).outputs = s.outputs :=
  by unfold playoutStep; split <;> rfl
@[simp] theorem playoutStep_arbCount (s : State) :
    (playoutStep s).arbCount = s.arbCount :=
  by unfold playoutStep; split <;> rfl
@[simp] theorem playoutStep_bufGen (s : State) :
    (playoutStep s).bufGen = s.bufGen :=
  by unfold playoutStep; split <;> rfl

end playoutStep

section storeSample

@[simp] theorem storeSample_cfg (v : Sample) (s : State) : (storeSample v s).cfg = s.cfg := rfl
@[simp] theorem storeSample_sampleRate (v : Sample) (s : State) :
    (storeSample v s).sampleRate = s.sampleRate :=
  rfl
@[simp] theorem storeSample_samplePeriodNs (v : Sample) (s : State) :
    (storeSample v s).samplePeriodNs = s.samplePeriodNs :=
  rfl
@[simp] theorem storeSample_bufferSize (v : Sample) (s : State) :
    (storeSample v s).bufferSize = s.bufferSize :=
  rfl
@[simp] theorem storeSample_amplitude (v : Sample) (s : State) : (storeSample v s).amplitude = s.amplitude := rfl
@[simp] theorem storeSample_periodNs (v : Sample) (s : State) : (storeSample v s).periodNs = s.periodNs := rfl
@[simp] theorem storeSample_newPeriodNs (v : Sample) (s : State) :
    (storeSample v s).newPeriodNs = s.newPeriodNs :=
  rfl
@[simp] theorem storeSample_position (v : Sample) (s : State) : (storeSample v s).position = s.position := rfl
@[simp] theorem storeSample_playoutTimeUs (v : Sample) (s : State) :
    (storeSample v s).playoutTimeUs = s.playoutTimeUs :=
  rfl
@[simp] theorem storeSample_playoutSoFarNs (v : Sample) (s : State) :
    (storeSample v s).playoutSoFarNs = s.playoutSoFarNs :=
  rfl
@[simp] theorem storeSample_outBuf (v : Sample) (s : State) : (storeSample v s).outBuf = s.outBuf := rfl
@[simp] theorem storeSample_outLen (v : Sample) (s : State) : (storeSample v s).outLen = s.outLen := rfl
@[simp] theorem storeSample_fillSize (v : Sample) (s : State) : (storeSample v s).fillSize = s.fillSize := rfl
@[simp] theorem storeSample_fillIndex (v : Sample) (s : State) :
    (storeSample v s).fillIndex = s.fillIndex + 2#32 :=
  rfl
@[simp] theorem storeSample_fillBuf (v : Sample) (s : State) :
    (storeSample v s).fillBuf = s.fillBuf.write16 s.fillIndex.toNat v :=
  rfl
@[simp] theorem storeSample_halted (v : Sample) (s : State) : (storeSample v s).halted = s.halted := rfl
@[simp] theorem storeSample_inputs (v : Sample) (s : State) : (storeSample v s).inputs = s.inputs := rfl
@[simp] theorem storeSample_outputs (v : Sample) (s : State) : (storeSample v s).outputs = s.outputs := rfl
@[simp] theorem storeSample_arbCount (v : Sample) (s : State) : (storeSample v s).arbCount = s.arbCount := rfl
@[simp] theorem storeSample_bufGen (v : Sample) (s : State) : (storeSample v s).bufGen = s.bufGen := rfl

end storeSample

section commit

@[simp] theorem commit_cfg (s : State) : (commit s).cfg = s.cfg := by simp [commit]
@[simp] theorem commit_sampleRate (s : State) : (commit s).sampleRate = s.sampleRate := by simp [commit]
@[simp] theorem commit_samplePeriodNs (s : State) :
    (commit s).samplePeriodNs = s.samplePeriodNs :=
  by simp [commit]
@[simp] theorem commit_bufferSize (s : State) : (commit s).bufferSize = s.bufferSize := by simp [commit]
@[simp] theorem commit_amplitude (s : State) : (commit s).amplitude = s.amplitude := by simp [commit]
@[simp] theorem commit_periodNs (s : State) : (commit s).periodNs = s.periodNs := by simp [commit]
@[simp] theorem commit_newPeriodNs (s : State) : (commit s).newPeriodNs = s.newPeriodNs := by simp [commit]
@[simp] theorem commit_position (s : State) : (commit s).position = s.position := by simp [commit]
@[simp] theorem commit_playoutTimeUs (s : State) : (commit s).playoutTimeUs = s.playoutTimeUs := by simp [commit]
@[simp] theorem commit_playoutSoFarNs (s : State) :
    (commit s).playoutSoFarNs = s.playoutSoFarNs :=
  by simp [commit]
@[simp] theorem commit_outBuf (s : State) :
    (commit s).outBuf = s.fillBuf.copyOf (Config.freeByte s.bufGen) s.fillSize.toNat :=
  by simp [commit]
@[simp] theorem commit_outLen (s : State) : (commit s).outLen = s.fillSize := by simp [commit]
@[simp] theorem commit_fillIndex (s : State) : (commit s).fillIndex = 0#32 := by simp [commit]
@[simp] theorem commit_fillBuf (s : State) : (commit s).fillBuf = [] := by simp [commit]
@[simp] theorem commit_inputs (s : State) : (commit s).inputs = s.inputs := by simp [commit]
@[simp] theorem commit_outputs (s : State) : (commit s).outputs = s.outputs ++ [.pullReq] := by simp [commit]
@[simp] theorem commit_arbCount (s : State) : (commit s).arbCount = s.arbCount := by simp [commit]
@[simp] theorem commit_bufGen (s : State) : (commit s).bufGen = s.bufGen + 1 := by simp [commit]

end commit

section completeBuffer

@[simp] theorem completeBuffer_cfg (s : State) :
    (completeBuffer s).cfg = s.cfg :=
  by unfold completeBuffer; split <;> simp
@[simp] theorem completeBuffer_sampleRate (s : State) :
    (completeBuffer s).sampleRate = s.sampleRate :=
  by unfold completeBuffer; split <;> simp
@[simp] theorem completeBuffer_samplePeriodNs (s : State) :
    (completeBuffer s).samplePeriodNs = s.samplePeriodNs :=
  by unfold completeBuffer; split <;> simp
@[simp] theorem completeBuffer_bufferSize (s : State) :
    (completeBuffer s).bufferSize = s.bufferSize :=
  by unfold completeBuffer; split <;> simp
@[simp] theorem completeBuffer_amplitude (s : State) :
    (completeBuffer s).amplitude = s.amplitude :=
  by unfold completeBuffer; split <;> simp
@[simp] theorem completeBuffer_periodNs (s : State) :
    (completeBuffer s).periodNs = s.periodNs :=
  by unfold completeBuffer; split <;> simp
@[simp] theorem completeBuffer_newPeriodNs (s : State) :
    (completeBuffer s).newPeriodNs = s.newPeriodNs :=
  by unfold completeBuffer; split <;> simp
@[simp] theorem completeBuffer_position (s : State) :
    (completeBuffer s).position = s.position :=
  by unfold completeBuffer; split <;> simp
@[simp] theorem completeBuffer_playoutTimeUs (s : State) :
    (completeBuffer s).playoutTimeUs = s.playoutTimeUs :=
  by unfold completeBuffer; split <;> simp
@[simp] theorem completeBuffer_playoutSoFarNs (s : State) :
    (completeBuffer s).playoutSoFarNs = s.playoutSoFarNs :=
  by unfold completeBuffer; split <;> simp
@[simp] theorem completeBuffer_inputs (s : State) :
    (completeBuffer s).inputs = s.inputs :=
  by unfold completeBuffer; split <;> simp
@[simp] theorem completeBuffer_arbCount (s : State) :
    (completeBuffer s).arbCount = s.arbCount :=
  by unfold completeBuffer; split <;> simp

end completeBuffer

section tickSteps

@[simp] theorem tickSteps_cfg (s : State) : (tickSteps s).cfg = s.cfg := by simp [tickSteps]
@[simp] theorem tickSteps_sampleRate (s : State) : (tickSteps s).sampleRate = s.sampleRate := by simp [tickSteps]
@[simp] theorem tickSteps_samplePeriodNs (s : State) :
    (tickSteps s).samplePeriodNs = s.samplePeriodNs :=
  by simp [tickSteps]
@[simp] theorem tickSteps_bufferSize (s : State) : (tickSteps s).bufferSize = s.bufferSize := by simp [tickSteps]
@[simp] theorem tickSteps_amplitude (s : State) : (tickSteps s).amplitude = s.amplitude := by simp [tickSteps]
@[simp] theorem tickSteps_inputs (s : State) : (tickSteps s).inputs = s.inputs := by simp [tickSteps]
@[simp] theorem tickSteps_arbCount (s : State) : (tickSteps s).arbCount = s.arbCount := by simp [tickSteps]

end tickSteps

end Sys2Proof.Machine
end

