-- ==== Sys2Proof/Laws/Tick.lean ====
section
/-! SUPPORT. What TICK and its steps can do, said once (41_oscillator_tick.md R100 to R106, 42_playout_timer.md R121). -/

namespace Sys2Proof.Machine

/-- TICK that answers a next state: ignored while halted, else its six steps (R101, R69). -/
theorem execTick_cases {s t : State} (h : execTick s = .next t) :
    (s.halted = true ∧ t = s) ∨ (s.halted = false ∧ SlotExists s.fillIndex s.fillSize ∧ t = tickSteps s) := by
  unfold execTick at h
  split at h
  · injection h with h
    exact .inl ⟨‹_›, h.symm⟩
  · split at h
    · injection h with h
      exact .inr ⟨by simpa using ‹¬s.halted = true›, ‹_›, h.symm⟩
    · cases h

theorem execTick_halted {s : State} (h : s.halted = true) : execTick s = .next s := by simp [execTick, h]

theorem execTick_runs {s : State} (h : s.halted = false) (hs : SlotExists s.fillIndex s.fillSize) :
    execTick s = .next (tickSteps s) := by
  rw [execTick, if_neg (by simp [h]), if_pos hs]

/-- The state that step 5 stores into: steps 2 to 4 done. -/
theorem tickSteps_phase (s : State) :
    (tickSteps s).position = (wrapAndSwitch (advancePhase s)).position ∧
      (tickSteps s).periodNs = (wrapAndSwitch (advancePhase s)).periodNs := by
  simp [tickSteps]

theorem tickSteps_timer (s : State) :
    (tickSteps s).playoutTimeUs = (playoutStep s).playoutTimeUs ∧
      (tickSteps s).playoutSoFarNs = (playoutStep s).playoutSoFarNs ∧
      (tickSteps s).newPeriodNs = (playoutStep s).newPeriodNs := by
  have hc : (wrapAndSwitch (advancePhase s)).countdown = s.countdown := by simp [State.countdown]
  simp only [tickSteps, completeBuffer_playoutTimeUs, completeBuffer_playoutSoFarNs, completeBuffer_newPeriodNs,
    storeSample_playoutTimeUs, storeSample_playoutSoFarNs, storeSample_newPeriodNs]
  simp only [playoutStep, hc]
  by_cases h : s.timed
  · rw [if_pos h, if_pos (by simpa using h)]
    simp
  · rw [if_neg h, if_neg (by simpa using h)]
    simp

/-- Steps 5 and 6, when the slot is not the last one (R105). -/
theorem tickSteps_store {s : State} (h : s.fillIndex + 2#32 ≠ s.fillSize) :
    (tickSteps s).fillIndex = s.fillIndex + 2#32 ∧
      (tickSteps s).fillBuf = s.fillBuf.write16 s.fillIndex.toNat (rampSample s) ∧
      (tickSteps s).fillSize = s.fillSize ∧ (tickSteps s).outBuf = s.outBuf ∧
      (tickSteps s).outLen = s.outLen ∧ (tickSteps s).halted = s.halted ∧
      (tickSteps s).outputs = s.outputs ∧ (tickSteps s).bufGen = s.bufGen := by
  have : ¬ (storeSample (rampSample s) (playoutStep (wrapAndSwitch (advancePhase s)))).fillIndex
      = (storeSample (rampSample s) (playoutStep (wrapAndSwitch (advancePhase s)))).fillSize := by
    simpa using h
  simp only [tickSteps, completeBuffer, if_neg this]
  simp

/-- Steps 5 and 6, when the slot fills the buffer (R105, R106). -/
theorem tickSteps_commit {s : State} (h : s.fillIndex + 2#32 = s.fillSize) :
    (tickSteps s).fillIndex = 0#32 ∧ (tickSteps s).fillBuf = [] ∧
      (tickSteps s).outBuf = (s.fillBuf.write16 s.fillIndex.toNat (rampSample s)).copyOf
        (Config.freeByte s.bufGen) s.fillSize.toNat ∧
      (tickSteps s).outLen = s.fillSize ∧ (tickSteps s).outputs = s.outputs ++ [.pullReq] ∧
      (tickSteps s).bufGen = s.bufGen + 1 ∧
      (tickSteps s).fillSize = (if LegalSize s.cfg.bufMaxBytes s.bufferSize.toInt then s.bufferSize else 0#32) ∧
      (tickSteps s).halted =
        (if LegalSize s.cfg.bufMaxBytes s.bufferSize.toInt then s.halted else true) := by
  have : (storeSample (rampSample s) (playoutStep (wrapAndSwitch (advancePhase s)))).fillIndex
      = (storeSample (rampSample s) (playoutStep (wrapAndSwitch (advancePhase s)))).fillSize := by
    simpa using h
  simp only [tickSteps, completeBuffer, if_pos this]
  simp only [commit_fillIndex, commit_fillBuf, commit_outBuf, commit_outLen, commit_outputs, commit_bufGen]
  have hl : LegalSize (handOver (storeSample (rampSample s) (playoutStep (wrapAndSwitch (advancePhase s))))).cfg.bufMaxBytes
      (handOver (storeSample (rampSample s) (playoutStep (wrapAndSwitch (advancePhase s))))).bufferSize.toInt
      ↔ LegalSize s.cfg.bufMaxBytes s.bufferSize.toInt := by
    simp only [handOver_cfg, handOver_bufferSize, storeSample_cfg, storeSample_bufferSize, playoutStep_cfg,
      playoutStep_bufferSize, wrapAndSwitch_cfg, wrapAndSwitch_bufferSize, advancePhase_cfg, advancePhase_bufferSize]
  rw [commit, allocateNext]
  by_cases hb : LegalSize s.cfg.bufMaxBytes s.bufferSize.toInt
  · rw [if_pos (hl.2 hb), if_pos hb, if_pos hb]
    simp
  · rw [if_neg (fun hc => hb (hl.1 hc)), if_neg hb, if_neg hb]
    simp

/-- Step 3 after step 2, as numbers (R103, R104). -/
theorem wrapAndSwitch_advance (s : State) :
    let adv := (s.position.toNat + s.samplePeriodNs.toNat) % 2 ^ 32
    (adv < s.periodNs.toNat ∧ wrapAndSwitch (advancePhase s) = advancePhase s) ∨
    (s.periodNs.toNat ≤ adv ∧ s.periodNs ≠ s.newPeriodNs ∧
      (wrapAndSwitch (advancePhase s)).position = 0#32 ∧
      (wrapAndSwitch (advancePhase s)).periodNs = s.newPeriodNs) ∨
    (s.periodNs.toNat ≤ adv ∧ s.periodNs = s.newPeriodNs ∧
      (wrapAndSwitch (advancePhase s)).position.toNat = adv - s.periodNs.toNat ∧
      (wrapAndSwitch (advancePhase s)).periodNs = s.periodNs) := by
  intro adv
  have hadv : (s.position + s.samplePeriodNs).toNat = adv := by simp [adv]
  by_cases hle : s.periodNs.toNat ≤ adv
  · have hle' : (advancePhase s).periodNs ≤ (advancePhase s).position := by
      simp only [advancePhase_periodNs, advancePhase_position, BitVec.le_def, hadv]
      exact hle
    by_cases hsw : s.periodNs = s.newPeriodNs
    · refine .inr (.inr ⟨hle, hsw, ?_, ?_⟩)
      · have : ¬ (advancePhase s).switchPending := by simp [State.switchPending, hsw]
        rw [wrapAndSwitch, if_pos hle', if_neg this]
        simp only [advancePhase_position, advancePhase_periodNs]
        rw [BitVec.toNat_sub_of_le (by simpa using hle'), hadv]
      · have : ¬ (advancePhase s).switchPending := by simp [State.switchPending, hsw]
        rw [wrapAndSwitch, if_pos hle', if_neg this]
        rfl
    · have : (advancePhase s).switchPending := by simpa [State.switchPending] using hsw
      exact .inr (.inl ⟨hle, hsw, by rw [wrapAndSwitch, if_pos hle', if_pos this],
        by rw [wrapAndSwitch, if_pos hle', if_pos this]; rfl⟩)
  · refine .inl ⟨by omega, ?_⟩
    have hle' : ¬ (advancePhase s).periodNs ≤ (advancePhase s).position := by
      simp only [advancePhase_periodNs, advancePhase_position, BitVec.le_def, hadv]
      exact hle
    rw [wrapAndSwitch, if_neg hle']

/-- The closed form of R121 on its three numbers. -/
theorem countdownClosed_mk (us ns p : Nat) :
    countdownClosed { timeUs := us, soFarNs := ns, newPeriodNs := p } =
      { timeUs := us - min ((ns - 1) / 1000) us
        soFarNs := ns - 1000 * ((ns - 1) / 1000)
        newPeriodNs := if us ≤ (ns - 1) / 1000 then 0 else p } := rfl

/-- While Indefinite the timer does nothing (R120). -/
theorem playoutStep_indefinite {s : State} (h : ¬ s.timed) : playoutStep s = s := if_neg h

/-- While Timed, one step in closed form (R121), on registers wide enough for the sum. -/
theorem playoutStep_timed {s : State} (h : s.timed)
    (hs : s.playoutSoFarNs.toNat + s.samplePeriodNs.toNat < 2 ^ 32) :
    let sum := s.playoutSoFarNs.toNat + s.samplePeriodNs.toNat
    let k := (sum - 1) / 1000
    (playoutStep s).playoutTimeUs.toNat = s.playoutTimeUs.toNat - min k s.playoutTimeUs.toNat ∧
      (playoutStep s).playoutSoFarNs.toNat = sum - 1000 * k ∧
      (playoutStep s).newPeriodNs = (if s.playoutTimeUs.toNat ≤ k then 0#32 else s.newPeriodNs) := by
  intro sum k
  have hsum : (s.playoutSoFarNs + s.samplePeriodNs).toNat = sum := by
    rw [BitVec.toNat_add]
    exact Nat.mod_eq_of_lt hs
  have ht := s.playoutTimeUs.isLt
  simp only [playoutStep, if_pos h, withCountdown_playoutTimeUs, withCountdown_playoutSoFarNs,
    withCountdown_newPeriodNs, countdownClosed, State.countdown, countdownIterations, hsum]
  refine ⟨?_, ?_, ?_⟩
  · simp only [BitVec.toNat_ofNat]
    exact Nat.mod_eq_of_lt (by omega)
  · simp only [BitVec.toNat_ofNat]
    exact Nat.mod_eq_of_lt (by omega)
  · split <;> simp_all

end Sys2Proof.Machine
end

