-- ==== Sys2Proof/Laws/Step.lean ====
section
/-! SUPPORT. What one step can do, said once (20_memory.md R47, R48, 60_exceptions.md R155): every invariant of the
step follows from these cases. -/

namespace Sys2Proof.Machine

/-- What is left of the queue once the next step has taken its input: the rest of it, in front of it perhaps the part
of a simultaneous presentation that still waits. -/
def Leftover (p : PortInput) (rest ins : List PortInput) : Prop :=
  ins = rest ∨ ins = { p with sampleEn := false } :: rest ∨ ins = { p with cmd := none } :: rest

theorem Leftover.noReset {p : PortInput} {rest ins : List PortInput} (h : Leftover p rest ins) (hp : p.rst = false)
    (hr : ∀ q ∈ rest, q.rst = false) : ∀ q ∈ ins, q.rst = false := by
  rcases h with rfl | rfl | rfl
  · exact hr
  · intro q hq
    rcases List.mem_cons.1 hq with rfl | hq
    · exact hp
    · exact hr q hq
  · intro q hq
    rcases List.mem_cons.1 hq with rfl | hq
    · exact hp
    · exact hr q hq

/-- The next action is nothing, a reset, or something presented, each with its input taken from the queue. -/
theorem nextAction_cases (s : State) :
    (s.inputs = [] ∧ nextAction s = .idle s) ∨
    ∃ p rest, s.inputs = p :: rest ∧
      ((p.rst = true ∧ nextAction s = .reset p.sampleRate { s with inputs := rest }) ∨
       (p.rst = false ∧ nextAction s = .idle { s with inputs := rest }) ∨
       (p.rst = false ∧ ∃ f ins n, Leftover p rest ins ∧
          nextAction s = .perform f { s with inputs := ins, arbCount := n })) := by
  unfold nextAction
  split
  · exact .inl ⟨‹_›, rfl⟩
  · rename_i p rest hin
    refine .inr ⟨p, rest, hin, ?_⟩
    split
    · exact .inl ⟨‹_›, rfl⟩
    · have hp : p.rst = false := by simpa using ‹¬p.rst = true›
      refine .inr ?_
      split
      · split
        · refine .inr ⟨hp, ?_⟩
          unfold arbitrate
          split
          · exact ⟨_, _, _, .inr (.inl rfl), rfl⟩
          · exact ⟨_, _, _, .inr (.inr rfl), rfl⟩
        · exact .inr ⟨hp, _, rest, s.arbCount, .inl rfl, rfl⟩
      · split
        · exact .inr ⟨hp, _, rest, s.arbCount, .inl rfl, rfl⟩
        · exact .inl ⟨hp, rfl⟩

/-- What is performed answers a next state: an operation, the answer to a reserved word, or nothing. -/
theorem performFetched_cases {f : Fetched} {s t : State} (h : performFetched f s = .next t) :
    (∃ i, decode f = .instr i ∧ exec i s = .next t) ∨ t = answerReserved s ∨ t = s := by
  unfold performFetched at h
  split at h
  · exact .inl ⟨_, ‹_›, h⟩
  · injection h with h
    exact .inr (.inl h.symm)
  · injection h with h
    exact .inr (.inr h.symm)

theorem performReset_cases {strap : Word} {s t : State} (h : performReset strap s = .next t) :
    strap ≠ 0#32 ∧ t = resetRegisters strap s := by
  unfold performReset at h
  split at h
  · cases h
  · injection h with h
    exact ⟨‹_›, h.symm⟩

/-- One step that answers a next state. -/
theorem step_cases {s t : State} (h : step s = .next t) :
    (s.inputs = [] ∧ t = s) ∨
    ∃ p rest, s.inputs = p :: rest ∧
      ((p.rst = true ∧ p.sampleRate ≠ 0#32 ∧ t = resetRegisters p.sampleRate { s with inputs := rest }) ∨
       (p.rst = false ∧ ∃ ins n, Leftover p rest ins ∧
          ((∃ f i, decode f = .instr i ∧ exec i { s with inputs := ins, arbCount := n } = .next t) ∨
           t = answerReserved { s with inputs := ins, arbCount := n } ∨
           t = { s with inputs := ins, arbCount := n }))) := by
  unfold step at h
  rcases nextAction_cases s with ⟨hin, ha⟩ | ⟨p, rest, hin, ha⟩
  · rw [ha] at h
    injection h with h
    exact .inl ⟨hin, h.symm⟩
  · refine .inr ⟨p, rest, hin, ?_⟩
    rcases ha with ⟨hp, ha⟩ | ⟨hp, ha⟩ | ⟨hp, f, ins, n, hl, ha⟩
    · rw [ha] at h
      obtain ⟨h0, rfl⟩ := performReset_cases h
      exact .inl ⟨hp, h0, rfl⟩
    · rw [ha] at h
      injection h with h
      exact .inr ⟨hp, rest, s.arbCount, .inl rfl, .inr (.inr h.symm)⟩
    · rw [ha] at h
      refine .inr ⟨hp, ins, n, hl, ?_⟩
      rcases performFetched_cases h with ⟨i, hd, h⟩ | h | h
      · exact .inl ⟨f, i, hd, h⟩
      · exact .inr (.inl h)
      · exact .inr (.inr h)

/-- A command answers a next state, whatever the state (40_config_commands.md R84, 43_pull.md R140). -/
theorem exec_command_next (i : Instr) (s : State) (h : i ≠ .tick) : ∃ t, exec i s = .next t := by
  cases i <;> first | exact absurd rfl h | exact ⟨_, rfl⟩

theorem performAll_cons {f : Fetched} {s t : State} (fs : List Fetched) (h : performFetched f s = .next t) :
    performAll (f :: fs) s = performAll fs t := by rw [performAll, h]

theorem tickCount_cons (f : Fetched) (fs : List Fetched) :
    tickCount (f :: fs) = (if f = .strobe 1#1 then 1 else 0) + tickCount fs := by
  simp [tickCount, List.count_cons, Nat.add_comm]

/-- What each of the commands and strobes completes with and keeps, the whole list does; `P` may speak of how many TICKs
have gone before. -/
theorem performAll_keeps {P : Nat → State → Prop} (fs : List Fetched)
    (hP : ∀ f ∈ fs, ∀ n s, P n s →
      ∃ t, performFetched f s = .next t ∧ P (n + if f = .strobe 1#1 then 1 else 0) t) :
    ∀ n s, P n s → ∃ t, performAll fs s = .next t ∧ P (n + tickCount fs) t := by
  induction fs with
  | nil => exact fun n s hs => ⟨s, rfl, hs⟩
  | cons f fs ih =>
    intro n s hs
    obtain ⟨t, ht, hPt⟩ := hP f (List.mem_cons_self ..) n s hs
    obtain ⟨u, hu, hPu⟩ := ih (fun g hg => hP g (List.mem_cons_of_mem _ hg)) _ t hPt
    exact ⟨u, (performAll_cons fs ht).trans hu, by rwa [tickCount_cons, ← Nat.add_assoc]⟩

theorem run_zero (s : State) : run 0 s = .next s := rfl

/-- A run that reaches `t` in `k + 1` steps takes one step and reaches it in `k`. -/
theorem run_succ_cases {k : Nat} {s t : State} (h : run (k + 1) s = .next t) :
    ∃ m, step s = .next m ∧ run k m = .next t := by
  rw [run] at h
  cases hs : step s with
  | next m => exact ⟨m, rfl, by rw [hs] at h; exact h⟩
  | fault r => rw [hs] at h; cases h
  | refused r => rw [hs] at h; cases h

/-- What holds at the start of a run and is kept by every step holds at its end. -/
theorem run_keeps {P : State → Prop} (hP : ∀ s t, step s = .next t → P s → P t) :
    ∀ k s t, run k s = .next t → P s → P t
  | 0, s, t, h, hs => by
    injection h with h
    exact h ▸ hs
  | k + 1, s, t, h, hs => by
    obtain ⟨m, h1, h2⟩ := run_succ_cases h
    exact run_keeps hP k m t h2 (hP s m h1 hs)

theorem ticks_zero (s : State) : ticks 0 s = .next s := rfl

theorem ticks_succ (n : Nat) (s t : State) (h : exec .tick s = .next t) : ticks (n + 1) s = ticks n t := by
  simp [ticks, List.replicate_succ, runInstrs, h]

/-- One more TICK at the end. -/
theorem ticks_snoc (n : Nat) (s t u : State) (h : ticks n s = .next t) (hu : exec .tick t = .next u) :
    ticks (n + 1) s = .next u := by
  induction n generalizing s with
  | zero =>
    injection h with h
    subst h
    rw [ticks_succ 0 s u hu, ticks_zero]
  | succ n ih =>
    cases hs : exec .tick s with
    | next m =>
      rw [ticks_succ n s m hs] at h
      rw [ticks_succ (n + 1) s m hs]
      exact ih m h
    | fault r => simp [ticks, List.replicate_succ, runInstrs, hs] at h
    | refused r => simp [ticks, List.replicate_succ, runInstrs, hs] at h

end Sys2Proof.Machine
end

