-- ==== Sys2Proof/Laws/Queue.lean ====
section
/-! SUPPORT. No operation looks at the queue of the input ports or at the count of arbitration choices: performed on a
state with another queue it does the same and leaves that queue as it is (20_memory.md R47). -/

namespace Sys2Proof.Machine

/-- The state with another queue and another count. -/
def State.withQueue (s : State) (ins : List PortInput) (n : Nat) : State := { s with inputs := ins, arbCount := n }

theorem advancePhase_withQueue (s : State) (ins : List PortInput) (n : Nat) :
    advancePhase (s.withQueue ins n) = (advancePhase s).withQueue ins n := rfl

theorem wrapAndSwitch_withQueue (s : State) (ins : List PortInput) (n : Nat) :
    wrapAndSwitch (s.withQueue ins n) = (wrapAndSwitch s).withQueue ins n := by
  show (if s.periodNs ≤ s.position then _ else _) = (if s.periodNs ≤ s.position then _ else _ : State).withQueue ins n
  split
  · show (if s.switchPending then _ else _) = (if s.switchPending then _ else _ : State).withQueue ins n
    split <;> rfl
  · rfl

theorem playoutStep_withQueue (s : State) (ins : List PortInput) (n : Nat) :
    playoutStep (s.withQueue ins n) = (playoutStep s).withQueue ins n := by
  show (if s.timed then _ else _) = (if s.timed then _ else _ : State).withQueue ins n
  split <;> rfl

theorem storeSample_withQueue (v : Sample) (s : State) (ins : List PortInput) (n : Nat) :
    storeSample v (s.withQueue ins n) = (storeSample v s).withQueue ins n := rfl

theorem handOver_withQueue (s : State) (ins : List PortInput) (n : Nat) :
    handOver (s.withQueue ins n) = (handOver s).withQueue ins n := rfl

theorem allocateNext_withQueue (s : State) (ins : List PortInput) (n : Nat) :
    allocateNext (s.withQueue ins n) = (allocateNext s).withQueue ins n := by
  show (if LegalSize s.cfg.bufMaxBytes s.bufferSize.toInt then _ else _) =
    (if LegalSize s.cfg.bufMaxBytes s.bufferSize.toInt then _ else _ : State).withQueue ins n
  split <;> rfl

theorem completeBuffer_withQueue (s : State) (ins : List PortInput) (n : Nat) :
    completeBuffer (s.withQueue ins n) = (completeBuffer s).withQueue ins n := by
  show (if s.fillIndex = s.fillSize then _ else _) = (if s.fillIndex = s.fillSize then _ else _ : State).withQueue ins n
  split
  · rw [commit, handOver_withQueue, allocateNext_withQueue, commit]
  · rfl

theorem tickSteps_withQueue (s : State) (ins : List PortInput) (n : Nat) :
    tickSteps (s.withQueue ins n) = (tickSteps s).withQueue ins n := by
  rw [tickSteps, advancePhase_withQueue, wrapAndSwitch_withQueue, playoutStep_withQueue, storeSample_withQueue,
    completeBuffer_withQueue]
  rfl

/-- Every operation that answers a next state does the same beside another queue. -/
theorem exec_withQueue {i : Instr} {s t : State} (ins : List PortInput) (n : Nat) (h : exec i s = .next t) :
    exec i (s.withQueue ins n) = .next (t.withQueue ins n) := by
  cases i with
  | setf hz => cases h; rfl
  | setfd hz ms => cases h; rfl
  | setv level =>
    injection h with h
    subst h
    show Host.Outcome.next (if LevelAccepted level then _ else _) = _
    split <;> rfl
  | setb bytes =>
    injection h with h
    subst h
    show Host.Outcome.next (if s.bufferSizeCorrupt then _ else _) =
      .next ((if s.bufferSizeCorrupt then _ else _ : State).withQueue ins n)
    split <;> rfl
  | pull => cases h; rfl
  | tick =>
    rcases execTick_cases h with ⟨hh, rfl⟩ | ⟨hh, hs, rfl⟩
    · exact execTick_halted hh
    · rw [← tickSteps_withQueue]
      exact execTick_runs hh hs

end Sys2Proof.Machine
end

