-- ==== Sys2Proof/Tests/Slice0.lean ====
section
/-! SUPPORT. Tests: the ill-formed terms that WellFormed refuses; words written out from the spec's encodings; vectors of
95_test_vectors.md, one step each; and, for every obligation with hypotheses, a witness that meets them together. -/

namespace Sys2Proof.Tests

open Sys2Proof.Machine

/-! ### WellFormed refuses (30_encoding.md R62) -/

theorem test_setf_hz_too_large : (Instr.setf (2 ^ 32)).wellFormed = false := by decide
theorem test_setfd_hz_too_large : (Instr.setfd (2 ^ 32) 0).wellFormed = false := by decide
theorem test_setfd_ms_too_large : (Instr.setfd 0 (2 ^ 32)).wellFormed = false := by decide
theorem test_setv_level_too_large : (Instr.setv (2 ^ 32)).wellFormed = false := by decide
theorem test_setb_bytes_too_large : (Instr.setb (2 ^ 31)).wellFormed = false := by decide
theorem test_setb_bytes_too_small : (Instr.setb (-(2 ^ 31) - 1)).wellFormed = false := by decide

/-! ### Words written out (30_encoding.md R60, R61, R70; 95_test_vectors.md V-ENC) -/

/-- V-ENC-1, V-ENC-10: bits 71:64 = 00000001, hz = 1000 = 0x3E8 in bits 31:0; `arg1` is ignored. -/
theorem test_decode_setf :
    decode (.command 0x0100000000000003E8#72) = .instr (.setf 1000) ∧
      decode (.command 0x01DEADBEEF000003E8#72) = .instr (.setf 1000) := by decide
/-- V-ENC-3: bits 71:64 = 00000010, ms = 500 = 0x1F4 in bits 63:32, hz = 440 = 0x1B8 in bits 31:0. -/
theorem test_decode_setfd : decode (.command 0x02000001F4000001B8#72) = .instr (.setfd 440 500) := by decide
/-- V-ENC-6, V-ENC-12. -/
theorem test_decode_setv :
    decode (.command 0x0300000000FFFFFFFF#72) = .instr (.setv 4294967295) ∧
      decode (.command 0x03FFFFFFFF00000200#72) = .instr (.setv 512) := by decide
/-- V-ENC-7, V-ENC-8. -/
theorem test_decode_setb :
    decode (.command 0x040000000000000008#72) = .instr (.setb 8) ∧
      decode (.command 0x0400000000FFFFFFFE#72) = .instr (.setb (-2)) := by decide
/-- V-ENC-9, V-ENC-11. -/
theorem test_decode_pull :
    decode (.command 0x050000000000000000#72) = .instr .pull ∧
      decode (.command 0x05123456789ABCDEF0#72) = .instr .pull := by decide
/-- R69: the strobe at 1 is TICK, at 0 nothing. -/
theorem test_decode_tick : decode (.strobe 1#1) = .instr .tick ∧ decode (.strobe 0#1) = .inactive := by decide
/-- V-ENC-13, V-ENC-14, V-ENC-15. -/
theorem test_decode_reserved :
    decode (.command 0x000000000000000000#72) = .reserved 0x00#8 ∧
      decode (.command 0x060000000700000005#72) = .reserved 0x06#8 ∧
      decode (.command 0xFFFFFFFFFFFFFFFFFF#72) = .reserved 0xFF#8 := by decide
/-- V-ENC-4, V-ENC-8 the other way. -/
theorem test_encode :
    encode (.setfd 1000 3) = .command 0x0200000003000003E8#72 ∧
      encode (.setb (-2)) = .command 0x0400000000FFFFFFFE#72 := by decide
/-- The table's rows as the table numbers their bits. -/
theorem test_decodeTableWord :
    decodeTableWord 72 0x0300000000000003FF = some (.setv 1023) ∧ decodeTableWord 8 1 = some .tick ∧
      decodeTableWord 72 0 = none := by decide

/-! ### The shared operations -/

/-- 95_test_vectors.md 2.2: ties upward, the ends of the ranges. -/
theorem test_hzToPeriodNs :
    [1, 3, 7, 262, 440, 880, 1024, 5120, 44100, 1500000000, 2000000000, 2000000001].map hzToPeriodNs =
      [1000000000, 333333333, 142857143, 3816794, 2272727, 1136364, 976563, 195313, 22676, 1, 1, 0] := by decide
/-- 95_test_vectors.md 2.2, second table. -/
theorem test_samplePeriodOf :
    [1#32, 11025#32, 44100#32, 48000#32, 1000000000#32, 1000000001#32].map samplePeriodOf =
      [1000000000#32, 90702#32, 22675#32, 20833#32, 1#32, 0#32] := by decide
/-- V-TMR-2, 3, 5, 7a, 7e, the sums written out: the closed form. -/
theorem test_countdownClosed :
    countdownClosed ⟨100, 63000, 7⟩ = ⟨38, 1000, 7⟩ ∧ countdownClosed ⟨5, 62500, 7⟩ = ⟨0, 500, 0⟩ ∧
      countdownClosed ⟨63, 63500, 7⟩ = ⟨0, 500, 0⟩ ∧ countdownClosed ⟨7, 1000, 7⟩ = ⟨7, 1000, 7⟩ ∧
      countdownClosed ⟨7, 1001, 7⟩ = ⟨6, 1, 7⟩ := by decide
/-- V-TMR-2 and V-TMR-3 by the loop. -/
theorem test_countdownLoop :
    countdownLoop 63 ⟨100, 63000, 7⟩ = ⟨38, 1000, 7⟩ ∧ countdownLoop 63 ⟨5, 62500, 7⟩ = ⟨0, 500, 0⟩ := by decide
/-- 20_memory.md R43. -/
theorem test_legalSize :
    LegalSize 65536 2 ∧ LegalSize 65536 65536 ∧ ¬ LegalSize 65536 65538 ∧ ¬ LegalSize 65536 7 ∧
      ¬ LegalSize 65536 0 ∧ ¬ LegalSize 65536 (-2) := by decide
/-- 41_oscillator_tick.md R105, example: 959 = 0x03BF is stored `BF 03`. -/
theorem test_write16_little_endian :
    Memory.write16 [] 14 959#16 = [(14, 0xBF#8), (15, 0x03#8)] := by decide

/-! ### One step each -/

/-- What an outcome's next state satisfies. -/
def after (o : Host.Outcome State Fault Refusal) (f : State → Bool) : Bool :=
  match o with
  | .next t => f t
  | .fault _ => false
  | .refused _ => false

/-- A fill buffer whose first `n` bytes are written. -/
def written (n : Nat) : Memory := (List.range n).map (fun a => (a, BitVec.ofNat 8 a))

/-- The state of R100's example and of V-OSC-1: 16 kHz, 1000 Hz, position 187,500, slot 3 next. -/
def tone : State :=
  { State.reset with
    periodNs := 1000000#32, newPeriodNs := 1000000#32, position := 187500#32
    fillIndex := 6#32, fillBuf := written 6 }

/-- The same, in front of the last slot of the buffer. -/
def lastSlot : State := { tone with fillIndex := 14#32, fillBuf := written 14 }

/-- A state with a committed buffer of 4 bytes. -/
def committed : State :=
  { tone with outLen := 4#32, outBuf := [(0, 0xBF#8), (1, 0x03#8), (2, 0x00#8), (3, 0x01#8)] }

/-- A halted state: nothing is being filled, the last buffer stays. -/
def stuck : State :=
  { committed with halted := true, bufferSize := 0#32, fillSize := 0#32, fillIndex := 0#32, fillBuf := [] }

/-- The state with a command word, alone, at its next instant. -/
def given (s : State) (w : CmdWord) : State := { s with inputs := [{ cmd := some w }] }

/-- The state with the strobe, alone, at its next instant. -/
def strobed (s : State) : State := { s with inputs := [{ sampleEn := true }] }

/-- V-CFG-1. -/
theorem test_setf : after (exec (.setf 1000) tone)
    (fun t => t.newPeriodNs = 1000000#32 ∧ t.playoutTimeUs = 0#42 ∧ t.position = 187500#32 ∧
      t.outputs = [okAnswer]) = true := by decide
/-- V-CFG-4c: the largest duration needs 42 bits. -/
theorem test_setfd : after (exec (.setfd 1 4294967295) tone)
    (fun t => t.newPeriodNs = 1000000000#32 ∧ t.playoutTimeUs = 4294967295000#42) = true := by decide
/-- V-CFG-9. -/
theorem test_setv_accepts : after (exec (.setv 512) tone) (fun t => t.amplitude = 512#10) = true := by decide
/-- V-CFG-7. -/
theorem test_setv_rejects : after (exec (.setv 1024) tone)
    (fun t => t.amplitude = 1023#10 ∧ t.outputs = [invalidAnswer]) = true := by decide
/-- V-CFG-13. -/
theorem test_setb_stores : after (exec (.setb (-2)) tone)
    (fun t => t.bufferSize = 0xFFFFFFFE#32 ∧ t.fillSize = 16#32) = true := by decide
/-- V-CFG-14: the stored size is the one tested. -/
theorem test_setb_rejects : after (exec (.setb 16) stuck)
    (fun t => t.bufferSize = 0#32 ∧ t.outputs = [invalidAnswer]) = true := by decide
/-- R140: the bytes in ascending order. -/
theorem test_pull : after (exec .pull committed)
    (fun t => t.outputs = [.response { status := .ok, len := 4#32, data := [0xBF#8, 0x03#8, 0x00#8, 0x01#8] }])
      = true := by decide
/-- V-PULL-1. -/
theorem test_pull_before_first_commit : after (exec .pull State.reset)
    (fun t => t.outputs = [.response { status := .ok, len := 0#32, data := [] }]) = true := by decide
/-- R100's example, V-OSC-1: stores `BF 00` at 6 and 7. -/
theorem test_tick : after (exec .tick tone)
    (fun t => t.position = 250000#32 ∧ t.fillIndex = 8#32 ∧ t.fillBuf.read 6 = some 0xBF#8 ∧
      t.fillBuf.read 7 = some 0x00#8) = true := by decide
/-- V-COM-4 with V-OSC-3: the buffer is committed and announced, the illegal size halts. -/
theorem test_tick_commit_halts : after
    (exec .tick { lastSlot with
      periodNs := 2272727#32, newPeriodNs := 2272727#32, position := 2250000#32, bufferSize := 7#32 })
    (fun t => t.position = 39773#32 ∧ t.outLen = 16#32 ∧ t.outByte 14 = 0xF4#8 ∧ t.outByte 15 = 0x03#8 ∧
      t.outputs = [.pullReq] ∧ t.halted = true ∧ t.fillSize = 0#32) = true := by decide
/-- V-OSC-4: a wrap with a switch; V-OSC-4b: pending, no wrap. -/
theorem test_wrapAndSwitch :
    (let t := wrapAndSwitch (advancePhase { tone with position := 937500#32, newPeriodNs := 500000#32 })
     t.periodNs = 500000#32 ∧ t.position = 0#32) ∧
    (let t := wrapAndSwitch (advancePhase { tone with position := 500000#32, newPeriodNs := 500000#32 })
     t.periodNs = 1000000#32 ∧ t.position = 562500#32) := by decide
/-- V-OSC-9 (TICK 8): outside the envelope the literal value. -/
theorem test_ramp_outside_envelope :
    rampSample { tone with periodNs := 50000#32, position := 75000#32 } = 1534#16 := by decide
/-- V-ERR-3. -/
theorem test_step_reserved : after (step (given tone 0x060000000700000005#72))
    (fun t => t.outputs = [reservedAnswer] ∧ t.inputs = [] ∧ t.position = 187500#32) = true := by decide
/-- V-OSC-11: `cmd_first` and `tick_first`, the first of the two steps. -/
theorem test_step_together :
    (let p : PortInput := { sampleEn := true, cmd := some 0x030000000000000200#72 }
     after (step { tone with cfg := { Config.default with arbOrder := .cmdFirst }, inputs := [p] })
        (fun t => t.amplitude = 512#10 ∧ t.fillIndex = 6#32) = true ∧
     after (step { tone with cfg := { Config.default with arbOrder := .tickFirst }, inputs := [p] })
        (fun t => t.amplitude = 1023#10 ∧ t.fillIndex = 8#32) = true) := by decide
/-- V-RST-1, with a command presented together with the reset. -/
theorem test_step_reset : after
    (step { committed with inputs := [{ rst := true, sampleRate := 8000#32, cmd := some 0#72, sampleEn := true }] })
    (fun t => t.samplePeriodNs = 125000#32 ∧ t.amplitude = 1023#10 ∧ t.bufferSize = 16#32 ∧ t.outLen = 0#32 ∧
      t.periodNs = 0#32 ∧ t.outputs = []) = true := by decide
/-- Every row of the table runs as the first instruction after reset. -/
theorem test_rows_run_from_reset :
    [(72, 0x0100000000000003E8), (72, 0x02000001F4000001B8), (72, 0x030000000000000200),
      (72, 0x040000000000000008), (72, 0x050000000000000000), (8, 1)].all
        (fun r => after (step (State.reset.withFetchWord r.1 r.2)) (fun t => t.inputs.isEmpty)) = true := by decide

/-! ### Witnesses: the hypotheses of the obligations can be met together -/

theorem tone_inv : tone.Inv :=
  ⟨by decide, by decide, by decide, by decide, by decide, by decide, by decide⟩
theorem lastSlot_inv : lastSlot.Inv :=
  ⟨by decide, by decide, by decide, by decide, by decide, by decide, by decide⟩
theorem stuck_inv : stuck.Inv :=
  ⟨by decide, by decide, by decide, by decide, by decide, by decide, by decide⟩
theorem reset_inv : State.reset.Inv :=
  ⟨by decide, by decide, by decide, by decide, by decide, by decide, by decide⟩

theorem witness_DecodeOfEncodeIsTheInstruction :
    (Instr.setf (2 ^ 32 - 1)).WellFormed ∧ (Instr.setfd (2 ^ 32 - 1) (2 ^ 32 - 1)).WellFormed ∧
      (Instr.setv (2 ^ 32 - 1)).WellFormed ∧ (Instr.setb (-(2 ^ 31))).WellFormed ∧
      (Instr.setb (2 ^ 31 - 1)).WellFormed ∧ Instr.pull.WellFormed ∧ Instr.tick.WellFormed := by decide
theorem witness_EncodeOfDecodeClearsOnlyIgnoredFields :
    decode (.command (commandWord 0x01#8 0xDEADBEEF#32 1000#32)) = .instr (.setf 1000) ∧
      decode (.command (commandWord 0x02#8 500#32 440#32)) = .instr (.setfd 440 500) ∧
      decode (.command (commandWord 0x05#8 1#32 2#32)) = .instr .pull := by decide
theorem witness_IgnoredFieldsTakeNoPartInDecoding :
    (0x01#8 ∈ [0x01#8, 0x03#8, 0x04#8]) ∧ (∃ w, encode (.setf 1000) = .command w) ∧
      (∀ hz ms, Instr.setf 1000 ≠ .setfd hz ms) ∧ ∃ w, encode .pull = .command w :=
  ⟨by decide, ⟨_, rfl⟩, by simp, ⟨_, rfl⟩⟩
theorem witness_ReservedWordsAreAnsweredAndChangeNothing :
    (∃ p rest, (given tone 0x060000000700000005#72).inputs = p :: rest ∧
      p.OnlyCommand 0x060000000700000005#72 ∧
      6 ≤ (BitVec.extractLsb' 64 8 (0x060000000700000005#72)).toNat) ∧
    (∃ p rest, (given tone 0#72).inputs = p :: rest ∧ p.OnlyCommand 0#72 ∧
      BitVec.extractLsb' 64 8 (0#72) = 0#8) :=
  ⟨⟨_, _, rfl, by decide, by decide⟩, ⟨_, _, rfl, by decide, by decide⟩⟩
theorem witness_DecodedInstructionIsWellFormed :
    decode (.command 0x0300000000FFFFFFFF#72) = .instr (.setv 4294967295) := by decide
/-- The frequencies where the rule's ranges meet. -/
theorem witness_FrequencyRoundsToTheNearestPeriod :
    ∀ hz ∈ [1, 666666666, 666666667, 2000000000, 2000000001, 2 ^ 32 - 1], 0 < hz ∧ hz < 2 ^ 32 := by decide

theorem witness_StepRunsTheDecodedInstruction :
    (∃ p rest, (given tone 0x050000000000000000#72).inputs = p :: rest ∧ p.OnlyCommand 0x050000000000000000#72 ∧
      decode (.command 0x050000000000000000#72) = .instr .pull) ∧
    (∃ p rest, (strobed tone).inputs = p :: rest ∧ p.OnlyStrobe) ∧ decodeTableWord 8 1 = some .tick :=
  ⟨⟨_, _, rfl, by decide, by decide⟩, ⟨_, _, rfl, by decide⟩, by decide⟩
theorem witness_CommandAndTickTogetherAreTwoSteps :
    ∀ o : ArbOrder, ∃ (s : State) (p : PortInput) (w : CmdWord), s.inputs = [p] ∧ p.Together w ∧ s.cfg.arbOrder = o ∧
      (∃ t : State, t.inputs = [{ p with cmd := none }]) ∧ ∃ t : State, t.inputs = [{ p with sampleEn := false }] :=
  fun o => ⟨{ tone with
      cfg := { Config.default with arbOrder := o }, inputs := [{ sampleEn := true, cmd := some 0#72 }] },
    _, 0#72, rfl, ⟨rfl, rfl, rfl⟩, rfl, ⟨{ tone with inputs := _ }, rfl⟩, ⟨{ tone with inputs := _ }, rfl⟩⟩
theorem witness_ResetOverridesAndSetsEveryRegister :
    ∃ (s : State) (p : PortInput), s.inputs = [p] ∧ p.rst = true ∧ p.sampleRate ≠ 0#32 ∧ LegalConfig s.cfg ∧
      p.cmd ≠ none ∧ p.sampleEn = true :=
  ⟨{ stuck with inputs := [{ rst := true, sampleRate := 1#32, cmd := some 0#72, sampleEn := true }] }, _, rfl,
    rfl, by decide, by decide, by decide, rfl⟩
theorem witness_ZeroStrapIsRefused :
    ∃ (s : State) (p : PortInput), s.inputs = [p] ∧ p.rst = true ∧ p.sampleRate = 0#32 :=
  ⟨{ tone with inputs := [{ rst := true }] }, _, rfl, rfl, rfl⟩
theorem witness_StrapIsReadOnlyAtReset :
    ∃ (s t : State) (p : PortInput), s.inputs = [p] ∧ p.rst = false ∧ step s = .next t :=
  ⟨strobed tone, _, _, rfl, rfl, rfl⟩
theorem witness_NothingPresentedChangesNothing :
    tone.inputs = [] ∧
      ∃ (s : State) (p : PortInput), s.inputs = [p] ∧ p.rst = false ∧ p.cmd = none ∧ p.sampleEn = false :=
  ⟨rfl, { tone with inputs := [{}] }, _, rfl, rfl, rfl, rfl⟩

theorem witness_SetfdRequestsToneAndRestartsCountdown : FitsU32 (2 ^ 32 - 1) ∧ FitsU32 0 := by decide
theorem witness_SetfRequestsToneIndefinitely : FitsU32 (2 ^ 32 - 1) ∧ FitsU32 0 := by decide
theorem witness_SetvAcceptsTheRangeAndRejectsTheRest :
    (FitsU32 1023 ∧ 1023 ≤ 1023) ∧ (FitsU32 1024 ∧ 1023 < 1024) ∧ FitsU32 (2 ^ 32 - 1) := by decide
theorem witness_SetbTestsTheStoredSize :
    (FitsS32 (-(2 ^ 31)) ∧ stuck.bufferSize.toInt ≤ 0) ∧
      (FitsS32 (2 ^ 31 - 1) ∧ 0 < ({ tone with bufferSize := 1#32 } : State).bufferSize.toInt) := by decide
theorem witness_ConfigurationCommandsLeaveTheGeneratorAlone :
    configCommand (.setf 0) ∧ configCommand (.setfd 0 0) ∧ configCommand (.setv 1024) ∧ configCommand (.setb 0) := by
  decide
theorem witness_EveryCommandIsAnsweredOnce :
    ∀ w ∈ [0x050000000000000000#72, 0x030000000000000400#72, 0#72],
      ∃ p rest, (given committed w).inputs = p :: rest ∧ p.OnlyCommand w :=
  fun _ _ => ⟨_, _, rfl, rfl, rfl, rfl⟩
theorem witness_InvalidParameterHasExactlyTwoCauses :
    Instr.setv 1024 ≠ .tick ∧ 1023 < 1024 ∧ Instr.setb 16 ≠ .tick ∧ stuck.bufferSize.toInt ≤ 0 := by decide
theorem witness_RejectedCommandsChangeNothing :
    ∃ (t : State) (r : Response), exec (.setv 1024) tone = .next t ∧ t.outputs = tone.outputs ++ [.response r] ∧
      r.status ≠ .ok :=
  ⟨_, { status := .invalidParameter, len := 0#32, data := [] }, rfl, by decide, by decide⟩
theorem witness_PullsBetweenCommitsAreIdentical :
    (strobed committed).NoReset ∧
      ∃ t : State, run 1 (strobed committed) = .next t ∧ t.pulses = (strobed committed).pulses :=
  ⟨by decide, _, rfl, by decide⟩

theorem witness_TickIsEnabledExactlyWhileNotHalted :
    stuck.halted = true ∧ tone.Inv ∧ tone.halted = false ∧ lastSlot.Inv ∧ lastSlot.halted = false :=
  ⟨rfl, tone_inv, rfl, lastSlot_inv, rfl⟩
/-- Below the period; exactly at it without a switch; exactly at it with one. -/
theorem witness_TickAdvancesWrapsAndSwitches :
    (tone.CanTick ∧ tone.advancedPhase < tone.periodNs.toNat) ∧
    (let s := { tone with position := 937500#32 }
     s.CanTick ∧ s.periodNs.toNat = s.advancedPhase ∧ s.periodNs = s.newPeriodNs) ∧
    (let s := { tone with position := 937500#32, newPeriodNs := 0#32 }
     s.CanTick ∧ s.periodNs.toNat = s.advancedPhase ∧ s.periodNs ≠ s.newPeriodNs) := by decide
theorem witness_TickStoresTheRampSample :
    let s := { tone with fillIndex := 12#32, fillBuf := written 12 }
    s.CanTick ∧ s.fillIndex.toNat + 2 < s.fillSize.toNat := by decide
/-- The largest legal size, and the one above it; the smallest, and 0. -/
theorem witness_TickThatFillsTheBufferCommits :
    lastSlot.CanTick ∧ lastSlot.fillIndex.toNat + 2 = lastSlot.fillSize.toNat ∧
    LegalSize lastSlot.cfg.bufMaxBytes (2#32).toInt ∧ LegalSize lastSlot.cfg.bufMaxBytes (65536#32).toInt ∧
    ¬ LegalSize lastSlot.cfg.bufMaxBytes (65538#32).toInt ∧ ¬ LegalSize lastSlot.cfg.bufMaxBytes (0#32).toInt := by
  decide
theorem witness_TickRunsTheCountdownLoop :
    (tone.CanTick ∧ tone.playoutSoFarNs.toNat ≤ 1000 ∧ tone.samplePeriodNs.toNat ≤ 10 ^ 9 ∧
      tone.playoutTimeUs = 0#42) ∧
    (let s := { tone with playoutTimeUs := 100#42, playoutSoFarNs := 1000#32 }
     s.CanTick ∧ s.playoutSoFarNs.toNat ≤ 1000 ∧ s.samplePeriodNs.toNat ≤ 10 ^ 9 ∧ s.playoutTimeUs ≠ 0#42 ∧
      s.playoutSoFarNs.toNat + s.samplePeriodNs.toNat ≤ 1000 * 63 + 1000) := by decide
/-- `k = 62` microseconds: exactly all that is left, and one less. -/
theorem witness_CountdownStepHasItsClosedForm :
    let Hyp := fun s : State => s.CanTick ∧ s.playoutSoFarNs.toNat ≤ 1000 ∧ s.samplePeriodNs.toNat ≤ 10 ^ 9 ∧
      s.playoutTimeUs ≠ 0#42 ∧ (s.playoutSoFarNs.toNat + s.samplePeriodNs.toNat - 1) / 1000 = 62
    Hyp { tone with playoutTimeUs := 62#42 } ∧ Hyp { tone with playoutTimeUs := 63#42 } :=
  ⟨by decide, by decide⟩
theorem witness_TickWritesOnlyItsOwnRegisters : tone.CanTick ∧ lastSlot.CanTick := by decide
theorem witness_PulsesAreExactlyTheCommits :
    (∃ t, exec .tick lastSlot = .next t ∧ lastSlot.halted = false ∧
      lastSlot.fillIndex.toNat + 2 = lastSlot.fillSize.toNat) ∧
    (∃ t, exec .tick tone = .next t ∧ ¬ tone.fillIndex.toNat + 2 = tone.fillSize.toNat) :=
  ⟨⟨_, rfl, by decide, by decide⟩, ⟨_, rfl, by decide⟩⟩
theorem witness_EachRegisterHasItsWriters : ∃ t, exec (.setv 5) tone = .next t ∧ t.amplitude ≠ tone.amplitude :=
  ⟨_, rfl, by decide⟩

theorem witness_PhaseStaysBelowThePeriod :
    let s := { tone with periodNs := 62500#32, newPeriodNs := 62500#32, position := 62499#32 }
    s.InEnvelope ∧ s.CanTick ∧ s.PeriodsInRange ∧ s.periodNs ≠ 0#32 ∧ s.position.toNat < s.periodNs.toNat := by
  decide
/-- With the next position one below the period, and exactly at it. -/
theorem witness_RampStaysBelowTheVolumeAndRises :
    (let s := { tone with position := 937499#32 }
     s.InEnvelope ∧ s.CanTick ∧ s.PeriodsInRange ∧ s.periodNs ≠ 0#32 ∧ s.position.toNat < s.periodNs.toNat ∧
      s.position.toNat + s.samplePeriodNs.toNat < s.periodNs.toNat) ∧
    (let s := { tone with position := 937500#32 }
     s.InEnvelope ∧ s.CanTick ∧ s.PeriodsInRange ∧ s.periodNs ≠ 0#32 ∧ s.position.toNat < s.periodNs.toNat ∧
      s.periodNs.toNat ≤ s.position.toNat + s.samplePeriodNs.toNat ∧ s.periodNs = s.newPeriodNs) ∧
    ∃ t, exec .tick { tone with position := 937500#32 } = .next t :=
  ⟨by decide, by decide, _, rfl⟩
theorem witness_PositionIsUnobservableWhileSilent :
    (strobed State.reset).silent ∧ ∃ t, run 1 (strobed State.reset) = .next t := ⟨by decide, _, rfl⟩

/-- A silent state with a tone requested. -/
def requested : State := { State.reset with newPeriodNs := 62501#32 }

theorem requested_inv : requested.Inv :=
  ⟨by decide, by decide, by decide, by decide, by decide, by decide, by decide⟩

/-- The same with a countdown running: the tone of SETFD. -/
def requestedTimed : State := { requested with playoutTimeUs := 1000#42 }

theorem requestedTimed_inv : requestedTimed.Inv :=
  ⟨by decide, by decide, by decide, by decide, by decide, by decide, by decide⟩

/-- Indefinite and Timed; the sample period just below the new period. -/
theorem witness_ToneFromSilenceOpensWithTwoZeroSamples :
    (requested.Inv ∧ requested.halted = false ∧
      LegalSize requested.cfg.bufMaxBytes requested.bufferSize.toInt ∧ requested.silent ∧ requested.newPeriodNs ≠ 0#32 ∧
      requested.samplePeriodNs.toNat < requested.newPeriodNs.toNat) ∧
    (requestedTimed.Inv ∧ requestedTimed.halted = false ∧
      LegalSize requestedTimed.cfg.bufMaxBytes requestedTimed.bufferSize.toInt ∧ requestedTimed.silent ∧
      requestedTimed.newPeriodNs ≠ 0#32 ∧ requestedTimed.timed) :=
  ⟨⟨requested_inv, by decide, by decide, by decide, by decide, by decide⟩,
    requestedTimed_inv, by decide, by decide, by decide, by decide, by decide⟩
theorem witness_AboveTheSampleRateEveryTickWraps :
    let Hyp := fun s : State => s.CanTick ∧ 0 < s.periodNs.toNat ∧ s.periodNs.toNat < s.samplePeriodNs.toNat ∧
      s.position.toNat + s.samplePeriodNs.toNat < 2 ^ 32
    (Hyp { tone with periodNs := 62499#32, newPeriodNs := 62499#32 } ∧
      ¬ { tone with periodNs := 62499#32, newPeriodNs := 62499#32 }.switchPending) ∧
    (Hyp { tone with periodNs := 62499#32, newPeriodNs := 1000000#32 } ∧
      { tone with periodNs := 62499#32, newPeriodNs := 1000000#32 }.switchPending) :=
  ⟨by decide, by decide⟩
theorem witness_WithoutASamplePeriodNothingAdvances :
    let s := { tone with samplePeriodNs := 0#32, playoutTimeUs := 5#42, playoutSoFarNs := 1000#32 }
    s.CanTick ∧ s.samplePeriodNs = 0#32 ∧ s.position.toNat < s.periodNs.toNat ∧ s.playoutSoFarNs.toNat ≤ 1000 := by
  decide
theorem witness_BufferCompletesAfterItsRemainingSlots :
    lastSlot.Inv ∧ lastSlot.halted = false ∧ 2 * 0 < lastSlot.fillSize.toNat - lastSlot.fillIndex.toNat :=
  ⟨lastSlot_inv, by decide, by decide⟩

/-- A tone with a mute pending; a tone with another pending, the countdown running. -/
def muting : State := { tone with newPeriodNs := 0#32 }
def retuning : State := { tone with newPeriodNs := 2272727#32, playoutTimeUs := 100#42 }

theorem muting_inv : muting.Inv :=
  ⟨by decide, by decide, by decide, by decide, by decide, by decide, by decide⟩
theorem retuning_inv : retuning.Inv :=
  ⟨by decide, by decide, by decide, by decide, by decide, by decide, by decide⟩

theorem witness_PendingPeriodIsAdoptedWithinOneCycle :
    (muting.Inv ∧ muting.InEnvelope ∧ LegalSize muting.cfg.bufMaxBytes muting.bufferSize.toInt ∧
      muting.switchPending ∧ muting.periodNs ≠ 0#32) ∧
    (retuning.Inv ∧ retuning.InEnvelope ∧ LegalSize retuning.cfg.bufMaxBytes retuning.bufferSize.toInt ∧
      retuning.switchPending ∧ retuning.periodNs ≠ 0#32 ∧ retuning.timed) :=
  ⟨⟨muting_inv, by decide, by decide, by decide, by decide⟩,
    retuning_inv, by decide, by decide, by decide, by decide, by decide⟩
/-- SETV 512, SETB 8, PULL, a reserved word and a TICK between; 1 ms at 16 kHz is 16 TICKs, the 17th expires. -/
def between : List Fetched :=
  [.command 0x030000000000000200#72, .command 0x040000000000000008#72, .command 0x050000000000000000#72,
    .command 0#72, .strobe 1#1]

theorem between_noFrequencyCommand : NoFrequencyCommand between := by
  intro f hf i hi
  simp only [between, List.mem_cons, List.not_mem_nil, or_false] at hf
  rcases hf with rfl | rfl | rfl | rfl | rfl <;> cases hi <;> rfl

theorem between_requestsLegalSizes : RequestsLegalSizes tone.cfg.bufMaxBytes between := by
  intro f hf b hb
  simp only [between, List.mem_cons, List.not_mem_nil, or_false] at hf
  rcases hf with rfl | rfl | rfl | rfl | rfl <;> cases hb
  decide

theorem witness_TimedToneExpiresInItsTick :
    ∃ t, tone.Inv ∧ 1 ≤ tone.samplePeriodNs.toNat ∧ FitsU32 440 ∧ FitsU32 1 ∧ 0 < 1 ∧
      exec (.setfd 440 1) tone = .next t ∧ NoFrequencyCommand between ∧ tone.halted = false ∧
      LegalSize tone.cfg.bufMaxBytes tone.bufferSize.toInt ∧ RequestsLegalSizes tone.cfg.bufMaxBytes between ∧
      tickCount between ≤ 10 ^ 6 * 1 / tone.samplePeriodNs.toNat ∧
      tickCount (List.replicate 16 (.strobe 1#1)) = 10 ^ 6 * 1 / tone.samplePeriodNs.toNat ∧
      10 ^ 6 * 1 / tone.samplePeriodNs.toNat < tickCount (List.replicate 17 (.strobe 1#1)) :=
  ⟨_, tone_inv, by decide, by decide, by decide, by decide, rfl, between_noFrequencyCommand, by decide, by decide,
    between_requestsLegalSizes, by decide, by decide, by decide⟩
/-- The smallest machine the spec allows, and the default one. -/
theorem witness_SilentMachineKeepsCommittingZeros :
    LegalConfig ⟨2, 2, .either⟩ ∧ LegalConfig Config.default ∧ (1#32 : Word) ≠ 0#32 := by decide

theorem witness_OnlyResetLeavesTheHaltedState :
    ∃ (p : PortInput) (rest : List PortInput), (strobed stuck).halted = true ∧ (strobed stuck).inputs = p :: rest ∧
      p.rst = false := ⟨_, _, rfl, rfl, rfl⟩
theorem witness_CorruptBufferSizeIsAOneWayTrap :
    let s := { lastSlot with bufferSize := 0#32 }
    s.bufferSize.toInt ≤ 0 ∧ s.NoReset ∧ run 0 s = .next s ∧ s.CanTick ∧
      s.fillIndex.toNat + 2 = s.fillSize.toNat := ⟨by decide, by decide, rfl, by decide, by decide⟩
theorem witness_ResetMeetsTheInvariant :
    LegalConfig ⟨2, 2, .tickFirst⟩ ∧ LegalConfig ⟨2 ^ 31 - 2, 2 ^ 31 - 2, .either⟩ ∧ (1#32 : Word) ≠ 0#32 := by
  decide
theorem witness_EveryStepKeepsTheInvariant :
    ∃ t, State.reset.Inv ∧ step State.reset = .next t := ⟨_, reset_inv, rfl⟩
theorem witness_NoStepFaultsUnderTheInvariant :
    stuck.Inv ∧ ∀ p rest, stuck.inputs = p :: rest → p.rst = true → p.sampleRate ≠ 0#32 :=
  ⟨stuck_inv, fun _ _ h => by cases h⟩
theorem witness_EveryStepKeepsTheMemoriesCanonical :
    ∃ t, (strobed committed).MemoriesCanonical ∧ step (strobed committed) = .next t := ⟨_, by decide, rfl⟩
theorem witness_EveryStepKeepsTheBuffersWritten :
    ∃ t, LegalConfig (strobed lastSlot).cfg ∧ (strobed lastSlot).BuffersShaped ∧ (strobed lastSlot).BuffersWritten ∧
      step (strobed lastSlot) = .next t := ⟨_, by decide, by decide, by decide, rfl⟩

/-- A silent state in front of a Commit, the countdown running. -/
def silentLast : State :=
  { State.reset with
    playoutTimeUs := 1#42, playoutSoFarNs := 1000#32, fillIndex := 14#32
    fillBuf := (List.range 14).map (fun a => (a, 0#8)) }

theorem silentLast_inv : silentLast.Inv :=
  ⟨by decide, by decide, by decide, by decide, by decide, by decide, by decide⟩
theorem silentLast_zeros : silentLast.SilentWithZeros :=
  ⟨rfl, rfl, by simp [silentLast], by simp [silentLast, State.reset, State.resetOf]⟩
theorem witness_SilentTickStoresZeroAndStaysSilent :
    silentLast.CanTick ∧ silentLast.BuffersWritten ∧ silentLast.SilentWithZeros :=
  ⟨by decide, by decide, silentLast_zeros⟩
theorem witness_SilentOscillatorStaysSilentForEver :
    silentLast.Inv ∧ silentLast.SilentWithZeros ∧ NoFrequencyCommand between :=
  ⟨silentLast_inv, silentLast_zeros, between_noFrequencyCommand⟩

end Sys2Proof.Tests
end

section
/-! PROOFS. What one operation can do to each register, and the package of an invariant of the step (10_state.md R26,
20_memory.md R47). -/

namespace Sys2Proof.Machine

/-- What an operation that answers a next state can write: the access matrix of R26, a row per operation. -/
theorem exec_cases {i : Instr} {s t : State} (h : exec i s = .next t) :
    (∃ hz ms r, (i = .setf hz ∧ ms = 0 ∨ i = .setfd hz ms) ∧
      t = { requestTone (hzToPeriodNs hz) (msToUs ms) s with outputs := s.outputs ++ [.response r] }) ∨
    (∃ level amp r, i = .setv level ∧ t = { s with amplitude := amp, outputs := s.outputs ++ [.response r] }) ∨
    (∃ bytes size r, i = .setb bytes ∧ t = { s with bufferSize := size, outputs := s.outputs ++ [.response r] }) ∨
    (∃ r, i = .pull ∧ t = { s with outputs := s.outputs ++ [.response r] }) ∨
    (i = .tick ∧ execTick s = .next t) := by
  cases i with
  | setf hz =>
    cases h
    exact .inl ⟨hz, 0, _, .inl ⟨rfl, rfl⟩, rfl⟩
  | setfd hz ms =>
    cases h
    exact .inl ⟨hz, ms, _, .inr rfl, rfl⟩
  | setv level =>
    injection h with h
    subst h
    refine .inr (.inl ⟨level, ?_⟩)
    split
    · exact ⟨_, _, rfl, rfl⟩
    · exact ⟨s.amplitude, _, rfl, rfl⟩
  | setb bytes =>
    injection h with h
    subst h
    refine .inr (.inr (.inl ⟨bytes, ?_⟩))
    split
    · exact ⟨s.bufferSize, _, rfl, rfl⟩
    · exact ⟨_, _, rfl, rfl⟩
  | pull =>
    cases h
    exact .inr (.inr (.inr (.inl ⟨_, rfl, rfl⟩)))
  | tick => exact .inr (.inr (.inr (.inr ⟨rfl, h⟩)))

/-- The frame of an operation: a command writes at most the five shared fields and answers once, a halted TICK does
nothing, and any other TICK is its six steps. -/
theorem exec_frame_cases {i : Instr} {s t : State} (h : exec i s = .next t) :
    (∃ period us ns amp size r, t = { s with
      newPeriodNs := period, playoutTimeUs := us, playoutSoFarNs := ns, amplitude := amp, bufferSize := size
      outputs := s.outputs ++ [.response r] }) ∨
    (s.halted = true ∧ t = s) ∨ (s.halted = false ∧ SlotExists s.fillIndex s.fillSize ∧ t = tickSteps s) := by
  rcases exec_cases h with ⟨_, _, _, -, rfl⟩ | ⟨_, _, _, -, rfl⟩ | ⟨_, _, _, -, rfl⟩ | ⟨_, -, rfl⟩ | ⟨-, htick⟩
  · exact .inl ⟨_, _, _, _, _, _, rfl⟩
  · exact .inl ⟨_, _, _, _, _, _, rfl⟩
  · exact .inl ⟨_, _, _, _, _, _, rfl⟩
  · exact .inl ⟨_, _, _, _, _, _, rfl⟩
  · exact .inr (execTick_cases htick)

/-- No operation writes the build parameters, the rate or the sample period (R17, R18, R26). -/
theorem exec_keeps_rate {i : Instr} {s t : State} (h : exec i s = .next t) :
    t.cfg = s.cfg ∧ t.sampleRate = s.sampleRate ∧ t.samplePeriodNs = s.samplePeriodNs := by
  rcases exec_frame_cases h with ⟨_, _, _, _, _, _, rfl⟩ | ⟨-, rfl⟩ | ⟨-, -, rfl⟩
  · exact ⟨rfl, rfl, rfl⟩
  · exact ⟨rfl, rfl, rfl⟩
  · exact ⟨tickSteps_cfg s, tickSteps_sampleRate s, tickSteps_samplePeriodNs s⟩

/-- What the decoder reads is in the operand ranges of R62, since it reads 32-bit fields. -/
theorem wellFormed_of_decode {f : Fetched} {i : Instr} (h : decode f = .instr i) : i.WellFormed := by
  cases f with
  | strobe en =>
    simp only [decode] at h
    split at h
    · cases h; rfl
    · cases h
  | command w =>
    rw [← commandWord_fields w, decode_commandWord] at h
    have h0 := (arg0Field w).isLt
    split_ifs at h <;> cases h
    · exact decide_eq_true h0
    · exact Bool.and_eq_true_iff.2 ⟨decide_eq_true h0, decide_eq_true (arg1Field w).isLt⟩
    · exact decide_eq_true h0
    · exact decide_eq_true ⟨BitVec.le_toInt (arg0Field w), BitVec.toInt_lt⟩
    · rfl

/-- An invariant of the step: it does not look at the queue, and the answer to a reserved word, every operation a
command word can carry and a reset, where one is presented, keep it. -/
theorem step_keeps {P : State → Prop} {s t : State} (h : step s = .next t) (hs : P s)
    (hqueue : ∀ u ins n, P u → P (u.withQueue ins n))
    (hanswer : ∀ u, P u → P (answerReserved u))
    (hexec : ∀ i u v, i.WellFormed → P u → exec i u = .next v → P v)
    (hreset : ∀ p rest, s.inputs = p :: rest → p.rst = true → p.sampleRate ≠ 0#32 →
      ∀ u, P u → P (resetRegisters p.sampleRate u)) : P t := by
  rcases step_cases h with ⟨_, rfl⟩ | ⟨p, rest, hin, ⟨hp, h0, rfl⟩ | ⟨_, ins, n, _, hperf⟩⟩
  · exact hs
  · exact hreset p rest hin hp h0 _ (hqueue s rest s.arbCount hs)
  · rcases hperf with ⟨f, i, hd, hx⟩ | rfl | rfl
    · exact hexec i _ t (wellFormed_of_decode hd) (hqueue s ins n hs) hx
    · exact hanswer _ (hqueue s ins n hs)
    · exact hqueue s ins n hs

/-- A step without a reset completes where every operation does. -/
theorem step_next {s : State} (hreset : ∀ p rest, s.inputs = p :: rest → p.rst = false)
    (hexec : ∀ i ins n, ∃ t, exec i (s.withQueue ins n) = .next t) : ∃ t, step s = .next t := by
  unfold step
  rcases nextAction_cases s with ⟨_, ha⟩ | ⟨p, rest, hin, ⟨hp, _⟩ | ⟨_, ha⟩ | ⟨_, f, ins, n, _, ha⟩⟩
  · exact ⟨s, by rw [ha]⟩
  · rw [hreset p rest hin] at hp
    cases hp
  · exact ⟨{ s with inputs := rest }, by rw [ha]⟩
  · rw [ha]
    simp only [performFetched]
    split
    · exact hexec _ ins n
    · exact ⟨_, rfl⟩
    · exact ⟨_, rfl⟩

end Sys2Proof.Machine
end

section
/-! PROOFS. The two buffers (10_state.md R20 to R23, R29 items 5 and 6): what TICK, reset and the commands keep of their
shape and contents. -/

namespace Sys2Proof.Machine

/-- Past an existing slot the index still fits its register (R21): it is at most the size. -/
theorem SlotExists.next_toNat {idx size : Word} (h : SlotExists idx size) : (idx + 2#32).toNat = idx.toNat + 2 := by
  have := h.2
  have := size.isLt
  rw [BitVec.toNat_add, show (2#32 : Word).toNat = 2 from rfl]
  omega

/-- A TICK whose slot is not the last one stores it and keeps the shape and the contents (R105). -/
theorem tickSteps_store_keeps_buffers {s : State} (hh : s.halted = false) (hslot : SlotExists s.fillIndex s.fillSize)
    (hfull : s.fillIndex + 2#32 ≠ s.fillSize) (hshape : s.BuffersShaped) (hwritten : s.BuffersWritten) :
    (tickSteps s).BuffersShaped ∧ (tickSteps s).BuffersWritten := by
  obtain ⟨hidx, hbuf, hsize, hout, hlen, hhalt, -, -⟩ := tickSteps_store hfull
  obtain ⟨heven, hfilling, -, hcommitted⟩ := hshape
  have hnext := hslot.next_toNat
  have hlt : s.fillIndex.toNat + 2 < s.fillSize.toNat := by
    have hne : s.fillIndex.toNat + 2 ≠ s.fillSize.toNat := fun he => hfull (BitVec.eq_of_toNat_eq (hnext.trans he))
    have := hslot.2
    omega
  refine ⟨⟨?_, ?_, ?_, ?_⟩, ?_, ?_⟩
  · rw [hidx, hnext]
    omega
  · rw [hidx, hnext, hsize, tickSteps_cfg]
    exact fun _ => ⟨(hfilling hh).1, hlt⟩
  · rw [hhalt, hh]
    exact nofun
  · rw [hlen, tickSteps_cfg]
    exact hcommitted
  · rw [hidx, hnext, hbuf]
    exact Memory.write16_offsets _ _ _ hwritten.1
  · rw [hout, hlen]
    exact hwritten.2

/-- The TICK that fills the buffer commits it whole and leaves an empty one of a legal size, or halts (R106). -/
theorem tickSteps_commit_keeps_buffers {s : State} (hh : s.halted = false)
    (hfull : s.fillIndex + 2#32 = s.fillSize) (hshape : s.BuffersShaped) :
    (tickSteps s).BuffersShaped ∧ (tickSteps s).BuffersWritten := by
  obtain ⟨hidx, hbuf, hout, hlen, -, -, hsize, hhalt⟩ := tickSteps_commit hfull
  obtain ⟨-, hfilling, -, -⟩ := hshape
  refine ⟨⟨?_, ?_, ?_, ?_⟩, ?_, ?_⟩
  · rw [hidx]
    rfl
  · rw [hidx, hsize, hhalt, tickSteps_cfg]
    split
    · have hlegal := (legalSize_toNat _ _ ‹_›).1
      have hpos := hlegal.1
      exact fun _ => ⟨hlegal, by simp only [BitVec.toNat_zero]; omega⟩
    · exact nofun
  · rw [hsize, hhalt]
    split
    · rw [hh]
      exact nofun
    · exact fun _ => rfl
  · rw [hlen, tickSteps_cfg]
    exact .inr (hfilling hh).1
  · rw [hbuf, hidx]
    rfl
  · rw [hout, hlen]
    exact Memory.copyOf_offsets ..

/-- TICK keeps the shape and the contents of the buffers, whether its slot is the last one or not. -/
theorem tickSteps_keeps_buffers {s : State} (hh : s.halted = false) (hslot : SlotExists s.fillIndex s.fillSize)
    (hshape : s.BuffersShaped) (hwritten : s.BuffersWritten) :
    (tickSteps s).BuffersShaped ∧ (tickSteps s).BuffersWritten := by
  by_cases hfull : s.fillIndex + 2#32 = s.fillSize
  · exact tickSteps_commit_keeps_buffers hh hfull hshape
  · exact tickSteps_store_keeps_buffers hh hslot hfull hshape hwritten

/-- Every operation keeps the shape and the contents of the buffers: TICK as above, and no command writes one. -/
theorem exec_keeps_buffers {i : Instr} {s t : State} (h : exec i s = .next t) (hshape : s.BuffersShaped)
    (hwritten : s.BuffersWritten) : t.BuffersShaped ∧ t.BuffersWritten := by
  rcases exec_frame_cases h with ⟨_, _, _, _, _, _, rfl⟩ | ⟨-, rfl⟩ | ⟨hh, hslot, rfl⟩
  · exact ⟨hshape, hwritten⟩
  · exact ⟨hshape, hwritten⟩
  · exact tickSteps_keeps_buffers hh hslot hshape hwritten

/-- After reset FILL is empty and of the default size, which is a legal one and fits its register (R28, R174). -/
theorem resetOf_buffers {cfg : Config} (strap : Word) (hc : LegalConfig cfg) :
    (State.resetOf cfg strap).BuffersShaped ∧ (State.resetOf cfg strap).BuffersWritten := by
  obtain ⟨-, -, hmax, hlegal⟩ := hc
  have hsize : (BitVec.ofNat 32 cfg.bufszDefault).toNat = cfg.bufszDefault := by
    have := hlegal.2.2
    rw [BitVec.toNat_ofNat]
    omega
  refine ⟨⟨rfl, fun _ => ?_, nofun, .inl rfl⟩, rfl, rfl⟩
  show LegalSize cfg.bufMaxBytes (BitVec.ofNat 32 cfg.bufszDefault).toNat ∧
    0 < (BitVec.ofNat 32 cfg.bufszDefault).toNat
  rw [hsize]
  have := hlegal.1
  exact ⟨hlegal, by omega⟩

/-- Settles O49: each operation keeps the buffers, and a reset builds them anew from the legal parameters. -/
theorem everyStepKeepsTheBuffersWritten : Obligations.EveryStepKeepsTheBuffersWritten := by
  intro s t hconfig hshape hwritten hstep
  have hkept : LegalConfig t.cfg ∧ t.BuffersShaped ∧ t.BuffersWritten := by
    refine step_keeps (P := fun u => LegalConfig u.cfg ∧ u.BuffersShaped ∧ u.BuffersWritten) hstep
      ⟨hconfig, hshape, hwritten⟩ (fun _ _ _ hu => hu) (fun _ hu => hu) ?_ ?_
    · intro i u v _ ⟨hc, hsh, hw⟩ hx
      exact ⟨by rwa [(exec_keeps_rate hx).1], exec_keeps_buffers hx hsh hw⟩
    · intro p _ _ _ _ u ⟨hc, _, _⟩
      exact ⟨hc, resetOf_buffers p.sampleRate hc⟩
  exact hkept.2

end Sys2Proof.Machine
end

section
/-! PROOFS. The phase and the playout timer under TICK (10_state.md R29 items 2, 3, 4 and 7). -/

namespace Sys2Proof.Machine

/-- The timer writes the requested period only to ask for silence (R120). -/
theorem playoutStep_newPeriodNs (s : State) :
    (playoutStep s).newPeriodNs = s.newPeriodNs ∨ (playoutStep s).newPeriodNs = 0#32 := by
  by_cases h : s.timed
  · rw [playoutStep, if_pos h, withCountdown_newPeriodNs, State.countdown, countdownClosed_mk]
    dsimp only
    split
    · exact .inr rfl
    · exact .inl (BitVec.ofNat_toNat ..)
  · exact .inl (by rw [playoutStep_indefinite h])

theorem tickSteps_newPeriodNs (s : State) :
    (tickSteps s).newPeriodNs = s.newPeriodNs ∨ (tickSteps s).newPeriodNs = 0#32 := by
  rw [(tickSteps_timer s).2.2]
  exact playoutStep_newPeriodNs s

/-- TICK keeps both periods in range: `periodNs` is kept or becomes the pending one (R104), which is kept or becomes 0
(R120). -/
theorem tickSteps_keeps_periods {s : State} (h : s.PeriodsInRange) : (tickSteps s).PeriodsInRange := by
  obtain ⟨hp, hn⟩ := h
  constructor
  · rw [(tickSteps_phase s).2]
    rcases wrapAndSwitch_advance s with ⟨-, ha⟩ | ⟨-, -, -, ha⟩ | ⟨-, -, -, ha⟩
    · rwa [ha]
    · rwa [ha]
    · rwa [ha]
  · rcases tickSteps_newPeriodNs s with hk | hk
    · rwa [hk]
    · rw [hk]
      exact Nat.zero_le _

/-- The sample period is a whole fraction of 10^9 ns (R18). -/
theorem State.RateDerived.samplePeriod_le {s : State} (h : s.RateDerived) : s.samplePeriodNs.toNat ≤ 10 ^ 9 :=
  h.2 ▸ Nat.div_le_self ..

/-- TICK keeps the timer in range: the countdown only falls, and what is left of the remainder is at most 1000 ns
(R121). -/
theorem tickSteps_keeps_timer {s : State} (hr : s.RateDerived) (h : s.TimerInRange) : (tickSteps s).TimerInRange := by
  obtain ⟨htime, hrem, -⟩ := tickSteps_timer s
  rw [State.TimerInRange, htime, hrem]
  by_cases ht : s.timed
  · have hsp := hr.samplePeriod_le
    obtain ⟨hrem', htime'⟩ := h
    obtain ⟨hus, hns, -⟩ := playoutStep_timed ht (by omega)
    rw [hus, hns]
    omega
  · rwa [playoutStep_indefinite ht]

/-- TICK keeps the phase below the period (R107): it has not reached it, or it is forced to 0, or, the sample period
being at most the period, one subtraction brings it back below. -/
theorem tickSteps_keeps_phase {s : State} (h : s.PhaseInRange) : (tickSteps s).PhaseInRange := by
  obtain ⟨hpos, hperiod⟩ := tickSteps_phase s
  rw [State.PhaseInRange, hpos, hperiod, tickSteps_samplePeriodNs]
  intro hsp hle
  rcases wrapAndSwitch_advance s with ⟨hlt, ha⟩ | ⟨-, -, ha, hb⟩ | ⟨hge, -, ha, hb⟩
  · rw [ha, advancePhase_position, advancePhase_periodNs, BitVec.toNat_add]
    exact hlt
  · rw [ha, BitVec.toNat_zero]
    omega
  · rw [hb] at hle
    have := h hsp hle
    rw [ha, hb]
    omega

end Sys2Proof.Machine
end

section
/-! PROOFS. The invariant of 10_state.md R29: reset establishes it and every step keeps it. -/

namespace Sys2Proof.Machine

/-- The invariant speaks of neither the volume, the configured size, the ports nor the model's counters. -/
theorem State.Inv.frame {s : State} (h : s.Inv) (amp : Amp) (size : Word) (ins : List PortInput) (outs : List Output)
    (n g : Nat) :
    { s with
      amplitude := amp, bufferSize := size, inputs := ins, outputs := outs, arbCount := n, bufGen := g : State }.Inv :=
  ⟨h.config, h.rate, h.periods, h.timer, h.shape, h.written, h.phase⟩

/-- The request of a tone stays in the registers' ranges (R63, R64). -/
theorem requestTone_keeps_inv {s : State} (h : s.Inv) (hz : Nat) {ms : Nat} (hms : ms < 2 ^ 32) :
    (requestTone (hzToPeriodNs hz) (msToUs ms) s).Inv := by
  refine ⟨h.config, h.rate, ⟨h.periods.1, ?_⟩, ⟨Nat.zero_le _, ?_⟩, h.shape, h.written, h.phase⟩
  · rw [requestTone_newPeriodNs, hzToPeriodNs_toNat]
    exact hzToPeriodNs_le hz
  · rw [requestTone_playoutTimeUs, msToUs_toNat ms hms]
    omega

/-- TICK keeps the invariant, part by part. -/
theorem tickSteps_keeps_inv {s : State} (h : s.Inv) (hh : s.halted = false)
    (hslot : SlotExists s.fillIndex s.fillSize) : (tickSteps s).Inv := by
  obtain ⟨hshape, hwritten⟩ := tickSteps_keeps_buffers hh hslot h.shape h.written
  refine ⟨?_, ?_, tickSteps_keeps_periods h.periods, tickSteps_keeps_timer h.rate h.timer, hshape, hwritten,
    tickSteps_keeps_phase h.phase⟩
  · rw [tickSteps_cfg]
    exact h.config
  · rw [State.RateDerived, tickSteps_sampleRate, tickSteps_samplePeriodNs]
    exact h.rate

/-- Every operation a command word can carry keeps the invariant. -/
theorem exec_keeps_inv {i : Instr} {s t : State} (hi : i.WellFormed) (h : s.Inv) (hx : exec i s = .next t) :
    t.Inv := by
  rcases exec_cases hx with ⟨hz, ms, _, hcmd, rfl⟩ | ⟨_, _, _, -, rfl⟩ | ⟨_, _, _, -, rfl⟩ | ⟨_, -, rfl⟩ | ⟨-, htick⟩
  · have hms : ms < 2 ^ 32 := by
      rcases hcmd with ⟨-, rfl⟩ | rfl
      · decide
      · exact of_decide_eq_true (Bool.and_eq_true_iff.1 hi).2
    exact (requestTone_keeps_inv h hz hms).frame ..
  · exact h.frame ..
  · exact h.frame ..
  · exact h.frame ..
  · rcases execTick_cases htick with ⟨-, rfl⟩ | ⟨hh, hslot, rfl⟩
    · exact h
    · exact tickSteps_keeps_inv h hh hslot

/-- Settles O45: the sample period is the derived one, and the buffers are those of a legal default size; the oscillator
is silent and the timer at rest. -/
theorem resetMeetsTheInvariant : Obligations.ResetMeetsTheInvariant := by
  intro cfg strap hc h0
  obtain ⟨hshape, hwritten⟩ := resetOf_buffers strap hc
  refine ⟨hc, ⟨h0, samplePeriodOf_toNat strap⟩, ⟨Nat.zero_le _, Nat.zero_le _⟩, ⟨Nat.zero_le _, Nat.zero_le _⟩, hshape,
    hwritten, fun hsp hle => ?_⟩
  exact absurd (hsp.trans hle) (Nat.not_succ_le_zero 0)

/-- The reset step leaves the registers of the reset state (R171); the ports' record and the counters go on. -/
theorem resetRegisters_inv {s : State} {strap : Word} (hc : LegalConfig s.cfg) (h0 : strap ≠ 0#32) :
    (resetRegisters strap s).Inv :=
  (resetMeetsTheInvariant s.cfg strap hc h0).frame ..

/-- Settles O46: every operation keeps each part of the invariant, and a reset establishes it again. -/
theorem everyStepKeepsTheInvariant : Obligations.EveryStepKeepsTheInvariant := by
  intro s t hs hstep
  refine step_keeps hstep hs ?_ ?_ ?_ ?_
  · exact fun u ins n h => h.frame u.amplitude u.bufferSize ins u.outputs n u.bufGen
  · exact fun u h => h.frame ..
  · exact fun i u v hi h hx => exec_keeps_inv hi h hx
  · exact fun p _ _ _ h0 u h => resetRegisters_inv h.config h0

end Sys2Proof.Machine
end

section
/-! PROOFS. Which operations write which registers (10_state.md R26, R30), and the halted state (R24, R160). -/

namespace Sys2Proof.Machine

/-- Settles O30: TICK writes only the registers of its column, and the requested period only to 0. -/
theorem tickWritesOnlyItsOwnRegisters : Obligations.TickWritesOnlyItsOwnRegisters := by
  intro s ⟨hh, hslot⟩
  refine ⟨tickSteps s, execTick_runs hh hslot, ?_, tickSteps_newPeriodNs s⟩
  rw [← tickSteps_cfg s, ← tickSteps_sampleRate s, ← tickSteps_samplePeriodNs s, ← tickSteps_bufferSize s,
    ← tickSteps_amplitude s, ← tickSteps_inputs s, ← tickSteps_arbCount s]

/-- Settles O32, by the cases of one operation. -/
theorem eachRegisterHasItsWriters : Obligations.EachRegisterHasItsWriters := by
  intro i s t hx
  obtain ⟨hcfg, hrate, hperiod⟩ := exec_keeps_rate hx
  refine ⟨hcfg, hrate, hperiod, ?_⟩
  rcases exec_cases hx with
    ⟨hz, ms, _, hcmd, rfl⟩ | ⟨level, _, _, rfl, rfl⟩ | ⟨bytes, _, _, rfl, rfl⟩ | ⟨_, rfl, rfl⟩ | ⟨rfl, htick⟩
  · have hfreq : (∃ hz, i = .setf hz) ∨ (∃ hz ms, i = .setfd hz ms) ∨ i = .tick := by
      rcases hcmd with ⟨rfl, -⟩ | rfl
      · exact .inl ⟨hz, rfl⟩
      · exact .inr (.inl ⟨hz, ms, rfl⟩)
    exact ⟨(absurd rfl ·), (absurd rfl ·), fun _ => hfreq, (absurd rfl ·)⟩
  · exact ⟨fun _ => ⟨level, rfl⟩, (absurd rfl ·), (absurd rfl ·), (absurd rfl ·)⟩
  · exact ⟨(absurd rfl ·), fun _ => ⟨bytes, rfl⟩, (absurd rfl ·), (absurd rfl ·)⟩
  · exact ⟨(absurd rfl ·), (absurd rfl ·), (absurd rfl ·), (absurd rfl ·)⟩
  · obtain ⟨hamp, hsize⟩ : t.amplitude = s.amplitude ∧ t.bufferSize = s.bufferSize := by
      rcases execTick_cases htick with ⟨-, rfl⟩ | ⟨-, -, rfl⟩
      · exact ⟨rfl, rfl⟩
      · exact ⟨tickSteps_amplitude s, tickSteps_bufferSize s⟩
    exact ⟨fun h => absurd hamp h, fun h => absurd hsize h, fun _ => .inr (.inr rfl), fun _ => rfl⟩

/-- `t` is halted, with the committed buffer, the oscillator and the pulses of `s`. -/
structure State.StuckAs (s t : State) : Prop where
  halted : t.halted = true
  outBuf : t.outBuf = s.outBuf
  outLen : t.outLen = s.outLen
  pulses : t.pulses = s.pulses
  periodNs : t.periodNs = s.periodNs
  position : t.position = s.position

/-- A response is no pulse. -/
theorem pulses_of_response {s t : State} {r : Response} (h : t.outputs = s.outputs ++ [.response r]) :
    t.pulses = s.pulses := by
  simp [State.pulses, h]

/-- In a halted state every operation completes (R160): the commands do in every state, and TICK does nothing. -/
theorem exec_next_of_halted (i : Instr) {s : State} (h : s.halted = true) : ∃ t, exec i s = .next t := by
  by_cases hi : i = .tick
  · exact hi ▸ ⟨s, execTick_halted h⟩
  · exact exec_command_next i s hi

/-- In a halted state no operation moves the generator or pulses. -/
theorem exec_keeps_stuck {i : Instr} {s u v : State} (h : s.StuckAs u) (hx : exec i u = .next v) : s.StuckAs v := by
  obtain ⟨hh, hob, hol, hpulses, hperiod, hpos⟩ := h
  rcases exec_frame_cases hx with ⟨_, _, _, _, _, _, rfl⟩ | ⟨-, rfl⟩ | ⟨hrun, -, -⟩
  · exact ⟨hh, hob, hol, (pulses_of_response rfl).trans hpulses, hperiod, hpos⟩
  · exact ⟨hh, hob, hol, hpulses, hperiod, hpos⟩
  · rw [hh] at hrun
    cases hrun

/-- Settles O43: the step completes, and each thing it can be keeps the stuck generator as it is. -/
theorem onlyResetLeavesTheHaltedState : Obligations.OnlyResetLeavesTheHaltedState := by
  intro s p rest hh hin hp
  have hnoReset : ∀ q qs, s.inputs = q :: qs → q.rst = false := by
    intro q qs hq
    cases hin.symm.trans hq
    exact hp
  obtain ⟨t, hstep⟩ := step_next hnoReset (fun i ins n => exec_next_of_halted i (s := s.withQueue ins n) hh)
  have hstuck : s.StuckAs t := by
    refine step_keeps hstep ⟨hh, rfl, rfl, rfl, rfl, rfl⟩ ?_ ?_ ?_ ?_
    · exact fun u _ _ ⟨hh, hob, hol, hpulses, hperiod, hpos⟩ => ⟨hh, hob, hol, hpulses, hperiod, hpos⟩
    · exact fun u ⟨hh, hob, hol, hpulses, hperiod, hpos⟩ =>
        ⟨hh, hob, hol, (pulses_of_response rfl).trans hpulses, hperiod, hpos⟩
    · exact fun i u v _ h hx => exec_keeps_stuck h hx
    · exact fun q qs hq hrst => absurd (hrst.symm.trans (hnoReset q qs hq)) nofun
  obtain ⟨hh', hob, hol, hpulses, hperiod, hpos⟩ := hstuck
  exact ⟨t, hstep, hh', hh', hob, hol, hpulses, hperiod, hpos⟩

end Sys2Proof.Machine
end

section
/-! PROOFS. What the step does for each thing the ports can present at one instant (20_memory.md R47, R48,
30_encoding.md R69). -/

namespace Sys2Proof.Machine

theorem performFetched_instr {f : Fetched} {i : Instr} (h : decode f = .instr i) (s : State) :
    performFetched f s = exec i s := by
  rw [performFetched, h]

/-- An active strobe is TICK (R69). -/
theorem performFetched_strobe (s : State) : performFetched (.strobe 1#1) s = exec .tick s :=
  performFetched_instr rfl s

theorem step_noInput {s : State} (h : s.inputs = []) : step s = .next s := by
  simp [step, nextAction, h]

section instant
variable {s : State} {p : PortInput} {rest : List PortInput} (hin : s.inputs = p :: rest)
include hin

theorem step_nothingPresented (hrst : p.rst = false) (hcmd : p.cmd = none) (hen : p.sampleEn = false) :
    step s = .next { s with inputs := rest } := by
  simp [step, nextAction, hin, hrst, hcmd, hen]

theorem step_onlyCommand {w : CmdWord} (hp : p.OnlyCommand w) :
    step s = performFetched (.command w) { s with inputs := rest } := by
  obtain ⟨hrst, hcmd, hen⟩ := hp
  simp [step, nextAction, hin, hrst, hcmd, hen]

theorem step_onlyStrobe (hp : p.OnlyStrobe) : step s = exec .tick { s with inputs := rest } := by
  obtain ⟨hrst, hcmd, hen⟩ := hp
  simp [step, nextAction, hin, hrst, hcmd, hen, performFetched_strobe]

/-- Of a command and a TICK presented together the TICK is performed, the command staying presented, where the TICK
goes first (R48). -/
theorem step_together_tick {w : CmdWord} (hp : p.Together w) (hfirst : tickGoesFirst s = true) :
    step s = exec .tick
      { s with inputs := { p with sampleEn := false } :: rest, arbCount := arbCountAfter s } := by
  obtain ⟨hrst, hcmd, hen⟩ := hp
  simp [step, nextAction, arbitrate, hin, hrst, hcmd, hen, hfirst, performFetched_strobe]

/-- Where it does not, the command is performed and the strobe stays presented. -/
theorem step_together_command {w : CmdWord} (hp : p.Together w) (hfirst : tickGoesFirst s = false) :
    step s = performFetched (.command w)
      { s with inputs := { p with cmd := none } :: rest, arbCount := arbCountAfter s } := by
  obtain ⟨hrst, hcmd, hen⟩ := hp
  simp [step, nextAction, arbitrate, hin, hrst, hcmd, hen, hfirst]

end instant

/-- The instant made for an instruction has it performed by the next step. -/
theorem step_instantOf {s : State} {f : Fetched} {i : Instr} {rest : List PortInput}
    (hin : s.inputs = instantOf f :: rest) (hd : decode f = .instr i) : step s = exec i { s with inputs := rest } := by
  cases f with
  | command w => rw [step_onlyCommand hin ⟨rfl, rfl, rfl⟩, performFetched_instr hd]
  | strobe en =>
    rw [decode] at hd
    split at hd
    · subst en
      cases hd
      exact step_onlyStrobe hin ⟨rfl, rfl, rfl⟩
    · cases hd

/-- What is read from a table row's bits is what the decoder answers on them. -/
theorem decode_tableWord {nbits w : Nat} {i : Instr} (h : decodeTableWord nbits w = some i) :
    decode (tableWord nbits w) = .instr i := by
  rw [decodeTableWord] at h
  split at h <;> cases h
  assumption

/-- Settles O13: the two ways in which nothing is presented. -/
theorem nothingPresentedChangesNothing : Obligations.NothingPresentedChangesNothing :=
  ⟨fun _ => step_noInput, fun _ _ _ => step_nothingPresented⟩

/-- Settles O8: a command word alone, the strobe alone, and the instant of a table row's bits. -/
theorem stepRunsTheDecodedInstruction : Obligations.StepRunsTheDecodedInstruction := by
  refine ⟨?_, ?_, ?_⟩
  · intro s p rest w i hin hp hd
    rw [step_onlyCommand hin hp, performFetched_instr hd]
  · exact fun s p rest hin hp => step_onlyStrobe hin hp
  · exact fun s nbits w i hd => step_instantOf (s := s.withFetchWord nbits w) rfl (decode_tableWord hd)

/-- Settles O9: the arbitration for each `ARB_ORDER`, after which what stayed presented stands alone at its instant. -/
theorem commandAndTickTogetherAreTwoSteps : Obligations.CommandAndTickTogetherAreTwoSteps := by
  intro s p rest w hin hp
  have ⟨hrst, hcmd, hen⟩ := hp
  refine ⟨fun ho => ?_, fun ho => ?_, fun ho => ?_, fun t ht => ?_, fun t ht => ?_⟩
  · have hfirst : tickGoesFirst s = false := by rw [tickGoesFirst, ho]
    have hcount : arbCountAfter s = s.arbCount := by rw [arbCountAfter, ho]
    rw [step_together_command hin hp hfirst, hcount]
  · have hfirst : tickGoesFirst s = true := by rw [tickGoesFirst, ho]
    have hcount : arbCountAfter s = s.arbCount := by rw [arbCountAfter, ho]
    rw [step_together_tick hin hp hfirst, hcount]
  · have hcount : arbCountAfter s = s.arbCount + 1 := by rw [arbCountAfter, ho]
    cases hfirst : tickGoesFirst s with
    | false => exact .inl (by rw [step_together_command hin hp hfirst, hcount])
    | true => exact .inr (by rw [step_together_tick hin hp hfirst, hcount])
  · exact step_onlyStrobe ht ⟨hrst, rfl, hen⟩
  · exact step_onlyCommand ht ⟨hrst, hcmd, rfl⟩

end Sys2Proof.Machine
end

section
/-! PROOFS. The canonical form of the two buffers (20_memory.md R40, R44) under the operations and the step. -/

namespace Sys2Proof.Machine

/-- TICK keeps both buffers in canonical form: it stores one sample into FILL (R105), or commits a copy of FILL and
leaves an empty one (R106). -/
theorem tickSteps_keeps_canonical {s : State} (h : s.MemoriesCanonical) : (tickSteps s).MemoriesCanonical := by
  obtain ⟨hfill, hout⟩ := h
  by_cases hfull : s.fillIndex + 2#32 = s.fillSize
  · obtain ⟨-, hfill', hout', -⟩ := tickSteps_commit hfull
    rw [State.MemoriesCanonical, hfill', hout']
    exact ⟨List.Pairwise.nil, Memory.copyOf_wf ..⟩
  · obtain ⟨-, hfill', -, hout', -⟩ := tickSteps_store hfull
    rw [State.MemoriesCanonical, hfill', hout']
    exact ⟨Memory.write16_wf _ _ _ hfill, hout⟩

/-- Every operation keeps both buffers in canonical form: no command writes one. -/
theorem exec_keeps_canonical {i : Instr} {s t : State} (hx : exec i s = .next t) (h : s.MemoriesCanonical) :
    t.MemoriesCanonical := by
  rcases exec_frame_cases hx with ⟨_, _, _, _, _, _, rfl⟩ | ⟨-, rfl⟩ | ⟨-, -, rfl⟩
  · exact h
  · exact h
  · exact tickSteps_keeps_canonical h

/-- Settles O48: each operation keeps the canonical form, and a reset empties both buffers (R171). -/
theorem everyStepKeepsTheMemoriesCanonical : Obligations.EveryStepKeepsTheMemoriesCanonical := by
  intro s t hs hstep
  refine step_keeps hstep hs ?_ ?_ ?_ ?_
  · exact fun _ _ _ h => h
  · exact fun _ h => h
  · exact fun _ _ _ _ h hx => exec_keeps_canonical hx h
  · exact fun _ _ _ _ _ _ _ => ⟨List.Pairwise.nil, List.Pairwise.nil⟩

end Sys2Proof.Machine
end

section
/-! PROOFS. The decoder and the encoder, one equation per operation (30_encoding.md R60 to R62, R65, R66, R69). -/

namespace Sys2Proof

/-! What each listed `op` byte decodes to, whatever stands in the fields that R61 ignores. -/

@[simp] theorem decode_setfWord (a1 a0 : Word) :
    decode (.command (commandWord opSetf a1 a0)) = .instr (.setf a0.toNat) := decode_commandWord ..

@[simp] theorem decode_setfdWord (a1 a0 : Word) :
    decode (.command (commandWord opSetfd a1 a0)) = .instr (.setfd a0.toNat a1.toNat) := decode_commandWord ..

@[simp] theorem decode_setvWord (a1 a0 : Word) :
    decode (.command (commandWord opSetv a1 a0)) = .instr (.setv a0.toNat) := decode_commandWord ..

@[simp] theorem decode_setbWord (a1 a0 : Word) :
    decode (.command (commandWord opSetb a1 a0)) = .instr (.setb a0.toInt) := decode_commandWord ..

@[simp] theorem decode_pullWord (a1 a0 : Word) :
    decode (.command (commandWord opPull a1 a0)) = .instr .pull := decode_commandWord ..

/-! What each operation with the operands of a word's fields encodes to. -/

@[simp] theorem encode_setf_toNat (a0 : Word) :
    encode (.setf a0.toNat) = .command (commandWord opSetf 0#32 a0) := by
  rw [encode, BitVec.ofNat_toNat, BitVec.setWidth_eq]

@[simp] theorem encode_setfd_toNat (a1 a0 : Word) :
    encode (.setfd a0.toNat a1.toNat) = .command (commandWord opSetfd a1 a0) := by
  rw [encode, BitVec.ofNat_toNat, BitVec.ofNat_toNat, BitVec.setWidth_eq, BitVec.setWidth_eq]

@[simp] theorem encode_setv_toNat (a0 : Word) :
    encode (.setv a0.toNat) = .command (commandWord opSetv 0#32 a0) := by
  rw [encode, BitVec.ofNat_toNat, BitVec.setWidth_eq]

@[simp] theorem encode_setb_toInt (a0 : Word) :
    encode (.setb a0.toInt) = .command (commandWord opSetb 0#32 a0) := by
  rw [encode, BitVec.ofInt_toInt]

/-- The encoder writes zero into `arg1` for every operation but SETFD (R65). -/
theorem arg1Field_of_encode {i : Instr} {w : CmdWord} (h : encode i = .command w) (hi : ∀ hz ms, i ≠ .setfd hz ms) :
    arg1Field w = 0#32 := by
  cases i with
  | setfd hz ms => exact absurd rfl (hi hz ms)
  | tick => cases h
  | setf | setv | setb | pull =>
    cases h
    exact arg1Field_commandWord ..

/-- A command word that decodes to an operation has one of the five listed `op` bytes, and the operation's operands are
its fields (R61, R62). -/
theorem decode_commandWord_cases {op : BitVec 8} {a1 a0 : Word} {i : Instr}
    (h : decode (.command (commandWord op a1 a0)) = .instr i) :
    (op = opSetf ∧ i = .setf a0.toNat) ∨ (op = opSetfd ∧ i = .setfd a0.toNat a1.toNat) ∨
    (op = opSetv ∧ i = .setv a0.toNat) ∨ (op = opSetb ∧ i = .setb a0.toInt) ∨ (op = opPull ∧ i = .pull) := by
  rw [decode_commandWord] at h
  split_ifs at h with hsetf hsetfd hsetv hsetb hpull <;> cases h
  · exact .inl ⟨hsetf, rfl⟩
  · exact .inr (.inl ⟨hsetfd, rfl⟩)
  · exact .inr (.inr (.inl ⟨hsetv, rfl⟩))
  · exact .inr (.inr (.inr (.inl ⟨hsetb, rfl⟩)))
  · exact .inr (.inr (.inr (.inr ⟨hpull, rfl⟩)))

/-- The `op` bytes that R61 does not list. -/
theorem unlisted_op_iff (op : BitVec 8) :
    op = 0#8 ∨ 6 ≤ op.toNat ↔ op ≠ opSetf ∧ op ≠ opSetfd ∧ op ≠ opSetv ∧ op ≠ opSetb ∧ op ≠ opPull := by
  simp only [opSetf, opSetfd, opSetv, opSetb, opPull]
  bv_omega

/-- The reserved words are those of the `op` bytes that R61 does not list (R66): a case for each arm of the decoder. -/
theorem decode_reserved_iff (w : CmdWord) :
    decode (.command w) = .reserved (opField w) ↔ opField w = 0#8 ∨ 6 ≤ (opField w).toNat := by
  rw [unlisted_op_iff, decode, decodeCommand]
  split_ifs <;> simp [*]

/-- Settles O1: each operand survives the field it is carried in, since it is in the field's range (R62). -/
theorem decodeOfEncodeIsTheInstruction : Obligations.DecodeOfEncodeIsTheInstruction := by
  intro i hi
  cases i with
  | setf hz =>
    have hhz : FitsU32 hz := of_decide_eq_true hi
    rw [encode, decode_setfWord, BitVec.toNat_ofNat, Nat.mod_eq_of_lt hhz]
  | setfd hz ms =>
    obtain ⟨hhz, hms⟩ : FitsU32 hz ∧ FitsU32 ms := by
      simpa [Instr.WellFormed, Instr.wellFormed] using hi
    rw [encode, decode_setfdWord, BitVec.toNat_ofNat, BitVec.toNat_ofNat, Nat.mod_eq_of_lt hhz, Nat.mod_eq_of_lt hms]
  | setv level =>
    have hlevel : FitsU32 level := of_decide_eq_true hi
    rw [encode, decode_setvWord, BitVec.toNat_ofNat, Nat.mod_eq_of_lt hlevel]
  | setb bytes =>
    obtain ⟨hlo, hup⟩ : FitsS32 bytes := of_decide_eq_true hi
    rw [encode, decode_setbWord, BitVec.toInt_ofInt_eq_self (by decide) hlo hup]
  | pull => exact decode_pullWord ..
  | tick => rfl

/-- Settles O2: for each of the five operations the encoder puts the fields that were read back where they stood. -/
theorem encodeOfDecodeClearsOnlyIgnoredFields : Obligations.EncodeOfDecodeClearsOnlyIgnoredFields := by
  intro op a1 a0 i h
  rcases decode_commandWord_cases h with ⟨rfl, rfl⟩ | ⟨rfl, rfl⟩ | ⟨rfl, rfl⟩ | ⟨rfl, rfl⟩ | ⟨rfl, rfl⟩
  · exact encode_setf_toNat a0
  · exact encode_setfd_toNat a1 a0
  · exact encode_setv_toNat a0
  · exact encode_setb_toInt a0
  · rfl

/-- Settles O3: the decoder's answer on SETF, SETV, SETB and PULL does not name the ignored fields, and the encoder
writes them as zero. -/
theorem ignoredFieldsTakeNoPartInDecoding : Obligations.IgnoredFieldsTakeNoPartInDecoding := by
  refine ⟨?_, decode_pullWord, fun _ _ => arg1Field_of_encode, ?_⟩
  · intro op hop a b v
    simp only [List.mem_cons, List.not_mem_nil, or_false] at hop
    rcases hop with rfl | rfl | rfl
    · exact (decode_setfWord a v).trans (decode_setfWord b v).symm
    · exact (decode_setvWord a v).trans (decode_setvWord b v).symm
    · exact (decode_setbWord a v).trans (decode_setbWord b v).symm
  · intro w h
    cases h
    exact arg0Field_commandWord ..

/-- Settles O6: the decoder reads 32-bit fields. -/
theorem decodedInstructionIsWellFormed : Obligations.DecodedInstructionIsWellFormed :=
  fun _ _ => Machine.wellFormed_of_decode

/-- Settles O5: closed words, evaluated by the decoder. -/
theorem writtenOutWordsDecode : Obligations.WrittenOutWordsDecode := by
  unfold Obligations.WrittenOutWordsDecode
  decide

end Sys2Proof
end

section
/-! PROOFS. The frequency operand's rounding (30_encoding.md R63). -/

namespace Sys2Proof.Machine

/-- A number of nanoseconds is at most the period exactly when it is at most `10^9 / hz + 1/2` (R63, round-half-up):
this fixes the period. -/
theorem le_hzToPeriodNs_iff {hz : Nat} (h : 0 < hz) (k : Nat) :
    k ≤ hzToPeriodNs hz ↔ k * (2 * hz) ≤ 2 * 10 ^ 9 + hz := by
  rw [hzToPeriodNs_pos hz h, Nat.le_div_iff_mul_le (by omega)]

/-- Settles O7: the period is at least itself, not at least its successor, and 1 and 2 are where its small values
begin. -/
theorem frequencyRoundsToTheNearestPeriod : Obligations.FrequencyRoundsToTheNearestPeriod := by
  refine ⟨hzToPeriodNs_zero, rfl, fun hz hpos _ => ?_⟩
  have hself := (le_hzToPeriodNs_iff hpos (hzToPeriodNs hz)).1 le_rfl
  have hsucc := mt (le_hzToPeriodNs_iff hpos (hzToPeriodNs hz + 1)).2 (Nat.not_succ_le_self _)
  have hone := le_hzToPeriodNs_iff hpos 1
  have htwo := le_hzToPeriodNs_iff hpos 2
  rw [Nat.mul_comm] at hself
  rw [Nat.add_one_mul, Nat.mul_comm] at hsucc
  exact ⟨by omega, hself, hzToPeriodNs_le hz, by omega, by omega⟩

end Sys2Proof.Machine
end

section
/-! PROOFS. Every command word is answered once, in its own step (30_encoding.md R66, R67, 60_exceptions.md R151). -/

namespace Sys2Proof.Machine

/-- A reserved word is performed by its answer (R66). -/
theorem performFetched_reserved {f : Fetched} {op : BitVec 8} (h : decode f = .reserved op) (s : State) :
    performFetched f s = .next (answerReserved s) := by
  rw [performFetched, h]

/-- Every command word decodes to an operation or is reserved (R61, R66). -/
theorem decode_command_ne_inactive (w : CmdWord) : decode (.command w) ≠ .inactive := by
  rw [decode, decodeCommand]
  split_ifs <;> exact nofun

/-- The words that decode to an operation with an `op` other than PULL's are the configuration commands (R61). -/
theorem configCommand_of_decode {w : CmdWord} {i : Instr} (h : decode (.command w) = .instr i)
    (hop : opField w ≠ opPull) : configCommand i = true := by
  rw [← commandWord_fields w] at h
  rcases decode_commandWord_cases h with ⟨-, rfl⟩ | ⟨-, rfl⟩ | ⟨-, rfl⟩ | ⟨-, rfl⟩ | ⟨hpull, -⟩
  · rfl
  · rfl
  · rfl
  · rfl
  · exact absurd hpull hop

/-- A configuration command answers once, without a payload (40_config_commands.md R84). -/
theorem exec_configCommand_answers {i : Instr} (h : configCommand i = true) (s : State) :
    ∃ t st, exec i s = .next t ∧ t.outputs = s.outputs ++ [.response { status := st, len := 0#32, data := [] }] := by
  cases i with
  | setf hz => exact ⟨_, .ok, rfl, rfl⟩
  | setfd hz ms => exact ⟨_, .ok, rfl, rfl⟩
  | setv level =>
    by_cases hl : LevelAccepted level
    · exact ⟨_, .ok, congrArg Host.Outcome.next (if_pos hl), rfl⟩
    · exact ⟨_, .invalidParameter, congrArg Host.Outcome.next (if_neg hl), rfl⟩
  | setb bytes =>
    by_cases hc : s.bufferSizeCorrupt
    · exact ⟨_, .invalidParameter, congrArg Host.Outcome.next (if_pos hc), rfl⟩
    · exact ⟨_, .ok, congrArg Host.Outcome.next (if_neg hc), rfl⟩
  | pull => cases h
  | tick => cases h

/-- A command word with PULL's `op` is performed as PULL, whatever its operand fields are (R65). -/
theorem performFetched_pull {w : CmdWord} (h : opField w = opPull) (s : State) :
    performFetched (.command w) s = execPull s := by
  rw [← commandWord_fields w, h, performFetched_instr (decode_pullWord ..), exec]

/-- A command word with another `op`, a reserved one too, answers once without a payload (R66, R67). -/
theorem performFetched_answers_of_not_pull {w : CmdWord} (h : opField w ≠ opPull) (s : State) :
    ∃ t st, performFetched (.command w) s = .next t ∧
      t.outputs = s.outputs ++ [.response { status := st, len := 0#32, data := [] }] := by
  cases hd : decode (.command w) with
  | instr i =>
    rw [performFetched_instr hd]
    exact exec_configCommand_answers (configCommand_of_decode hd h) s
  | reserved op => exact ⟨_, .reservedOp, performFetched_reserved hd s, rfl⟩
  | inactive => exact absurd hd (decode_command_ne_inactive w)

/-- Settles O4: the reserved words are decoded as such, and the step on one alone is its answer. -/
theorem reservedWordsAreAnsweredAndChangeNothing : Obligations.ReservedWordsAreAnsweredAndChangeNothing := by
  intro w
  refine ⟨(decode_reserved_iff w).symm, fun s p rest hin hp hop => ?_⟩
  rw [step_onlyCommand hin hp, performFetched_reserved ((decode_reserved_iff w).2 hop)]
  rfl

/-- Status 3 is never produced (R68). -/
theorem Status.code_ne_three (st : Status) : st.code ≠ 3#2 := by
  cases st <;> decide

/-- Settles O20: PULL answers with the committed buffer, every other word without a payload. -/
theorem everyCommandIsAnsweredOnce : Obligations.EveryCommandIsAnsweredOnce := by
  intro s p rest w hin hp
  rw [step_onlyCommand hin hp]
  by_cases hop : opField w = opPull
  · exact ⟨_, _, performFetched_pull hop _, rfl, Status.code_ne_three _, fun hne => absurd hop hne,
      fun _ => ⟨rfl, rfl, rfl⟩⟩
  · obtain ⟨t, st, ht, hout⟩ := performFetched_answers_of_not_pull hop { s with inputs := rest }
    exact ⟨t, _, ht, hout, st.code_ne_three, fun _ => ⟨rfl, rfl⟩, fun heq => absurd heq hop⟩

end Sys2Proof.Machine
end

section
/-! PROOFS. The four configuration commands (40_config_commands.md R80 to R84): what each writes and answers, and what
they leave alone. -/

namespace Sys2Proof.Machine

theorem exec_setv_accepted {level : Nat} (h : LevelAccepted level) (s : State) :
    exec (.setv level) s = .next (respondStatus .ok { s with amplitude := BitVec.ofNat 10 level }) :=
  congrArg Host.Outcome.next (if_pos h)

theorem exec_setv_rejected {level : Nat} (h : ¬ LevelAccepted level) (s : State) :
    exec (.setv level) s = .next (raiseInvalidParameter s) :=
  congrArg Host.Outcome.next (if_neg h)

theorem exec_setb_corrupt {s : State} (h : s.bufferSizeCorrupt) (bytes : Int) :
    exec (.setb bytes) s = .next (raiseInvalidParameter s) :=
  congrArg Host.Outcome.next (if_pos h)

theorem exec_setb_stores {s : State} (h : ¬ s.bufferSizeCorrupt) (bytes : Int) :
    exec (.setb bytes) s = .next (respondStatus .ok { s with bufferSize := BitVec.ofInt 32 bytes }) :=
  congrArg Host.Outcome.next (if_neg h)

/-- SETF is SETFD with a duration of 0 (R81). -/
theorem exec_setf_eq_setfd (hz : Nat) (s : State) : exec (.setf hz) s = exec (.setfd hz 0) s := rfl

/-- On a word the unsigned test of SETV and the signed one agree: a negative word is at least 2^31 unsigned (R62, R82). -/
theorem levelAccepted_toNat_iff_signed (v : Word) : LevelAccepted v.toNat ↔ 0 ≤ v.toInt ∧ v.toInt ≤ 1023 := by
  rw [BitVec.toInt_eq_toNat_cond]
  split <;> omega

/-- Settles O19: of the cases of one operation, those of the four commands write shared fields and answer. -/
theorem configurationCommandsLeaveTheGeneratorAlone : Obligations.ConfigurationCommandsLeaveTheGeneratorAlone := by
  intro i s hi
  have hcommand : i ≠ .tick := by
    rintro rfl
    cases hi
  obtain ⟨t, hx⟩ := exec_command_next i s hcommand
  rcases exec_cases hx with ⟨_, _, r, -, rfl⟩ | ⟨_, _, r, -, rfl⟩ | ⟨_, _, r, -, rfl⟩ | ⟨_, rfl, -⟩ | ⟨htick, -⟩
  · exact ⟨_, r, hx, rfl⟩
  · exact ⟨_, r, hx, rfl⟩
  · exact ⟨_, r, hx, rfl⟩
  · cases hi
  · exact absurd htick hcommand

/-- Settles O14: neither register truncates what is written to it (R63, R64). -/
theorem setfdRequestsToneAndRestartsCountdown : Obligations.SetfdRequestsToneAndRestartsCountdown :=
  fun hz ms _ _ hms => ⟨_, rfl, hzToPeriodNs_toNat hz, msToUs_toNat ms hms, rfl⟩

/-- Settles O15: the countdown written for a duration of 0 is 0. -/
theorem setfRequestsToneIndefinitely : Obligations.SetfRequestsToneIndefinitely :=
  fun hz s _ => ⟨exec_setf_eq_setfd hz s, _, rfl, hzToPeriodNs_toNat hz, rfl⟩

/-- Settles O16: an accepted level fits the volume register, and a rejected one is not written. -/
theorem setvAcceptsTheRangeAndRejectsTheRest : Obligations.SetvAcceptsTheRangeAndRejectsTheRest := by
  intro level s hlevel
  refine ⟨?_, fun hle => ?_, fun hlt => exec_setv_rejected (Nat.not_le.2 hlt) s⟩
  · have hsigned := levelAccepted_toNat_iff_signed (BitVec.ofNat 32 level)
    rwa [BitVec.toNat_ofNat, Nat.mod_eq_of_lt hlevel] at hsigned
  · have hfits : (BitVec.ofNat 10 level).toNat = level := by
      rw [BitVec.toNat_ofNat, Nat.mod_eq_of_lt (Nat.lt_succ_of_le hle)]
    exact ⟨_, exec_setv_accepted hle s, hfits, rfl⟩

/-- Settles O17: the stored size alone selects the case, and an s32 operand fits the register. -/
theorem setbTestsTheStoredSize : Obligations.SetbTestsTheStoredSize := by
  intro bytes s ⟨hlo, hup⟩
  refine ⟨fun hcorrupt => exec_setb_corrupt hcorrupt bytes, fun hpos => ?_⟩
  have hfits : (BitVec.ofInt 32 bytes).toInt = bytes := BitVec.toInt_ofInt_eq_self (by decide) hlo hup
  exact ⟨_, exec_setb_stores (Int.not_le.2 hpos) bytes, hfits, rfl⟩

end Sys2Proof.Machine
end

section
/-! PROOFS. The sample of a TICK (41_oscillator_tick.md R102) and its two bytes (20_memory.md R42). -/

namespace Sys2Proof

theorem Sample.lowByte_ofNat (n : Nat) : Sample.lowByte (BitVec.ofNat 16 n) = BitVec.ofNat 8 (n % 256) := by
  apply BitVec.eq_of_toNat_eq
  simp only [Sample.lowByte, BitVec.extractLsb'_toNat, BitVec.toNat_ofNat, Nat.shiftRight_zero]
  omega

theorem Sample.highByte_ofNat (n : Nat) : Sample.highByte (BitVec.ofNat 16 n) = BitVec.ofNat 8 (n / 256 % 256) := by
  apply BitVec.eq_of_toNat_eq
  simp only [Sample.highByte, BitVec.extractLsb'_toNat, BitVec.toNat_ofNat, Nat.shiftRight_eq_div_pow]
  omega

namespace Machine

/-- While silent the sample is 0, whatever the phase. -/
theorem rampSample_of_silent {s : State} (h : s.silent) : rampSample s = 0#16 := by
  rw [rampSample, rampQuotient, if_pos h]

/-- At the start of a period the sample is 0, silent or not. -/
theorem rampSample_of_position_zero {s : State} (h : s.position = 0#32) : rampSample s = 0#16 := by
  have hq : rampQuotient s = 0 := by simp [rampQuotient, h]
  rw [rampSample, hq]

/-- The sample is the ramp value cut to 16 bits. -/
theorem rampSample_eq_rampValue (s : State) : rampSample s = BitVec.ofNat 16 s.rampValue := by
  by_cases h : s.silent
  · rw [rampSample_of_silent h, State.rampValue, h]
    rfl
  · have h' : s.periodNs.toNat ≠ 0 := fun h0 => h (BitVec.eq_of_toNat_eq h0)
    rw [rampSample, rampQuotient, if_neg h, State.rampValue, if_neg h']

/-- Below a full period the ramp stays below its volume (R109). -/
theorem ramp_le_pred {pos period : Nat} (h : pos < period) (amp : Nat) : amp * pos / period ≤ amp - 1 := by
  cases amp with
  | zero => rw [Nat.zero_mul, Nat.zero_div]
  | succ a =>
    refine Nat.le_of_lt_succ (Nat.div_lt_of_lt_mul ?_)
    rw [Nat.mul_comm period]
    exact Nat.mul_lt_mul_of_pos_left h a.succ_pos

/-- With the phase below the period the quotient is not cut: the volume has 10 bits. -/
theorem rampSample_toNat {s : State} (h : s.position.toNat < s.periodNs.toNat) :
    (rampSample s).toNat = s.amplitude.toNat * s.position.toNat / s.periodNs.toNat := by
  have hle := ramp_le_pred h s.amplitude.toNat
  have hamp := s.amplitude.isLt
  rw [rampSample_eq_rampValue, State.rampValue, if_neg (by omega), BitVec.toNat_ofNat]
  exact Nat.mod_eq_of_lt (by omega)

end Machine

end Sys2Proof
end

section
/-! PROOFS. The slot that a TICK fills (41_oscillator_tick.md R101, R105, R106, 20_memory.md R41, R42). -/

namespace Sys2Proof.Machine

theorem Memory.byteAt_write16_low (m : Memory) (free : Nat → Byte) (a : Nat) (v : Sample) :
    (m.write16 a v).byteAt free a = v.lowByte := by
  rw [Memory.byteAt, Memory.read_write16_low, Option.getD_some]

theorem Memory.byteAt_write16_high (m : Memory) (free : Nat → Byte) (a : Nat) (v : Sample) :
    (m.write16 a v).byteAt free (a + 1) = v.highByte := by
  rw [Memory.byteAt, Memory.read_write16_high, Option.getD_some]

theorem Memory.byteAt_write16_other (m : Memory) (free : Nat → Byte) {a j : Nat} (v : Sample) (h : j ≠ a)
    (h' : j ≠ a + 1) : (m.write16 a v).byteAt free j = m.byteAt free j := by
  rw [Memory.byteAt, Memory.read_write16_other m a j v h h', Memory.byteAt]

/-- An enabled TICK whose slot exists is its six steps. -/
theorem State.CanTick.exec_tick {s : State} (h : s.CanTick) : exec .tick s = .next (tickSteps s) :=
  execTick_runs h.1 h.2

/-- Under the invariant a generator that is not halted can always tick (R101, R105). -/
theorem State.Inv.canTick {s : State} (h : s.Inv) (hh : s.halted = false) : s.CanTick := by
  obtain ⟨heven, hfilling, -, -⟩ := h.shape
  obtain ⟨hlegal, hlt⟩ := hfilling hh
  have hsize := hlegal.2.1
  exact ⟨hh, heven, by omega⟩

/-- The slot is the last one exactly when it ends at the size, as numbers. -/
theorem SlotExists.fills_iff {idx size : Word} (h : SlotExists idx size) :
    idx + 2#32 = size ↔ idx.toNat + 2 = size.toNat := by
  rw [← h.next_toNat]
  exact BitVec.toNat_inj.symm

/-- The TICK that fills the buffer commits FILL with its last sample stored (R106). -/
theorem tickSteps_commit_outByte {s : State} (hfull : s.fillIndex + 2#32 = s.fillSize) {a : Nat}
    (ha : a < s.fillSize.toNat) :
    (tickSteps s).outByte a =
      (s.fillBuf.write16 s.fillIndex.toNat (rampSample s)).byteAt (Config.freeByte s.bufGen) a := by
  obtain ⟨-, -, hout, -⟩ := tickSteps_commit hfull
  rw [State.outByte, hout, Memory.byteAt_copyOf _ _ _ _ _ ha]

/-- A Commit does not halt where the configured size is legal (R106). -/
theorem tickSteps_not_halted {s : State} (hh : s.halted = false)
    (hlegal : LegalSize s.cfg.bufMaxBytes s.bufferSize.toInt) : (tickSteps s).halted = false := by
  by_cases hfull : s.fillIndex + 2#32 = s.fillSize
  · obtain ⟨-, -, -, -, -, -, -, hhalt⟩ := tickSteps_commit hfull
    rw [hhalt, if_pos hlegal, hh]
  · obtain ⟨-, -, -, -, -, hhalt, -, -⟩ := tickSteps_store hfull
    rw [hhalt, hh]

/-- Settles O24: under the invariant the slot exists, and it is the last one or not. -/
theorem tickIsEnabledExactlyWhileNotHalted : Obligations.TickIsEnabledExactlyWhileNotHalted := by
  refine ⟨fun s hh => execTick_halted hh, fun s hinv hh => ?_⟩
  have hcan := hinv.canTick hh
  have hslot := hcan.2
  refine ⟨_, hcan.exec_tick, ?_⟩
  by_cases hfull : s.fillIndex + 2#32 = s.fillSize
  · obtain ⟨hidx, -, -, hlen, -⟩ := tickSteps_commit hfull
    exact .inr ⟨hslot.fills_iff.1 hfull, hidx, hlen⟩
  · obtain ⟨hidx, -⟩ := tickSteps_store hfull
    exact .inl (by rw [hidx, hslot.next_toNat])

/-- Settles O26: the store of the slot's two bytes, read back at it and elsewhere. -/
theorem tickStoresTheRampSample : Obligations.TickStoresTheRampSample := by
  intro s hcan hlt
  have hslot := hcan.2
  obtain ⟨hidx, hbuf, hsize, hout, hlen, hhalt, houts, hgen⟩ := tickSteps_store (mt hslot.fills_iff.1 hlt.ne)
  refine ⟨_, hcan.exec_tick, ?_, hsize, hhalt.trans hcan.1, houts, hlen, hout, ?_, ?_, fun a hlow hhigh => ?_,
    fun a => ?_⟩
  · rw [hidx, hslot.next_toNat]
  · rw [State.fillByte, hbuf, Memory.byteAt_write16_low, rampSample_eq_rampValue, Sample.lowByte_ofNat]
  · rw [State.fillByte, hbuf, Memory.byteAt_write16_high, rampSample_eq_rampValue, Sample.highByte_ofNat]
  · rw [State.fillByte, hbuf, hgen, Memory.byteAt_write16_other _ _ _ hlow hhigh, State.fillByte]
  · rw [State.outByte, hout, hgen, State.outByte]

/-- Settles O27: the committed copy, read at the last slot and before it, and the allocation that follows. -/
theorem tickThatFillsTheBufferCommits : Obligations.TickThatFillsTheBufferCommits := by
  intro s hcan hlast
  have hfull := hcan.2.fills_iff.2 hlast
  obtain ⟨hidx, hbuf, -, hlen, houts, -, hsize, hhalt⟩ := tickSteps_commit hfull
  refine ⟨_, hcan.exec_tick, hlen, ?_, ?_, fun a ha => ?_, houts, hidx, hbuf, fun hlegal => ?_, fun hillegal => ?_⟩
  · rw [tickSteps_commit_outByte hfull (by omega), Memory.byteAt_write16_low, rampSample_eq_rampValue,
      Sample.lowByte_ofNat]
  · rw [tickSteps_commit_outByte hfull (by omega), Memory.byteAt_write16_high, rampSample_eq_rampValue,
      Sample.highByte_ofNat]
  · rw [tickSteps_commit_outByte hfull (by omega), Memory.byteAt_write16_other _ _ _ (by omega) (by omega),
      State.fillByte]
  · rw [hsize, hhalt, if_pos hlegal, if_pos hlegal]
    exact ⟨(legalSize_toNat _ _ hlegal).2.1.symm, hcan.1⟩
  · rw [hsize, hhalt, if_neg hillegal, if_neg hillegal]
    exact ⟨rfl, rfl⟩

end Sys2Proof.Machine
end

section
/-! PROOFS. The phase over one TICK: the advance, the wrap and the deferred switch (41_oscillator_tick.md R103, R104,
R107, R109, R110). -/

namespace Sys2Proof.Machine

theorem State.advancedPhase_eq {s : State} (h : s.position.toNat + s.samplePeriodNs.toNat < 2 ^ 32) :
    s.advancedPhase = s.position.toNat + s.samplePeriodNs.toNat := Nat.mod_eq_of_lt h

/-- Below the period the phase is the advanced one. -/
theorem tickSteps_advances {s : State} (h : s.advancedPhase < s.periodNs.toNat) :
    (tickSteps s).periodNs = s.periodNs ∧ (tickSteps s).position.toNat = s.advancedPhase := by
  obtain ⟨hpos, hperiod⟩ := tickSteps_phase s
  rw [hpos, hperiod]
  rcases wrapAndSwitch_advance s with ⟨-, hw⟩ | ⟨hle, -⟩ | ⟨hle, -⟩
  · rw [hw]
    exact ⟨rfl, BitVec.toNat_add ..⟩
  · exact absurd h (Nat.not_lt.2 hle)
  · exact absurd h (Nat.not_lt.2 hle)

/-- At a wrap boundary without a pending switch it loses one period. -/
theorem tickSteps_wraps {s : State} (h : s.periodNs.toNat ≤ s.advancedPhase) (hp : s.periodNs = s.newPeriodNs) :
    (tickSteps s).periodNs = s.periodNs ∧ (tickSteps s).position.toNat = s.advancedPhase - s.periodNs.toNat := by
  obtain ⟨hpos, hperiod⟩ := tickSteps_phase s
  rw [hpos, hperiod]
  rcases wrapAndSwitch_advance s with ⟨hlt, -⟩ | ⟨-, hne, -⟩ | ⟨-, -, hwpos, hwperiod⟩
  · exact absurd h (Nat.not_le.2 hlt)
  · exact absurd hp hne
  · exact ⟨hwperiod, hwpos⟩

/-- At a wrap boundary with a pending switch the pending period is adopted and the phase is forced to 0. -/
theorem tickSteps_switches {s : State} (h : s.periodNs.toNat ≤ s.advancedPhase) (hp : s.switchPending) :
    (tickSteps s).periodNs = s.newPeriodNs ∧ (tickSteps s).position = 0#32 := by
  obtain ⟨hpos, hperiod⟩ := tickSteps_phase s
  rw [hpos, hperiod]
  rcases wrapAndSwitch_advance s with ⟨hlt, -⟩ | ⟨-, -, hwpos, hwperiod⟩ | ⟨-, heq, -⟩
  · exact absurd h (Nat.not_le.2 hlt)
  · exact ⟨hwperiod, hwpos⟩
  · exact absurd heq hp

/-- TICK keeps the period or adopts the pending one. -/
theorem tickSteps_periodNs (s : State) :
    (tickSteps s).periodNs = s.periodNs ∨ (tickSteps s).periodNs = s.newPeriodNs := by
  by_cases h : s.advancedPhase < s.periodNs.toNat
  · exact .inl (tickSteps_advances h).1
  · by_cases hp : s.switchPending
    · exact .inr (tickSteps_switches (Nat.not_lt.1 h) hp).1
    · exact .inl (tickSteps_wraps (Nat.not_lt.1 h) (not_not.1 hp)).1

/-- Inside the envelope a period that is not 0 is at least the sample period (R9). -/
theorem State.InEnvelope.samplePeriod_le {s : State} (h : s.InEnvelope) (h0 : s.periodNs ≠ 0#32) :
    s.samplePeriodNs.toNat ≤ s.periodNs.toNat := h.2.1.resolve_left h0

/-- Inside the envelope the advance does not overflow: both terms are at most 10^9 (R107). -/
theorem State.InEnvelope.advance_lt {s : State} (h : s.InEnvelope) (hrange : s.PeriodsInRange)
    (h0 : s.periodNs ≠ 0#32) (hpos : s.position.toNat < s.periodNs.toNat) :
    s.position.toNat + s.samplePeriodNs.toNat < 2 ^ 32 := by
  have hle := h.samplePeriod_le h0
  have hmax := hrange.1
  omega

/-- Settles O25: the three cases of steps 2 and 3. -/
theorem tickAdvancesWrapsAndSwitches : Obligations.TickAdvancesWrapsAndSwitches :=
  fun _ hcan => ⟨_, hcan.exec_tick, tickSteps_advances, tickSteps_wraps, tickSteps_switches⟩

/-- Settles O37: every advance ends at or above the period. -/
theorem aboveTheSampleRateEveryTickWraps : Obligations.AboveTheSampleRateEveryTickWraps := by
  intro s hcan _ hlt hfits
  have hadv := State.advancedPhase_eq hfits
  have hwrap : s.periodNs.toNat ≤ s.advancedPhase := by omega
  refine ⟨_, hcan.exec_tick, tickSteps_switches hwrap, fun hp => ?_⟩
  obtain ⟨hperiod, hpos⟩ := tickSteps_wraps hwrap (not_not.1 hp)
  exact ⟨hperiod, by omega⟩

/-- Settles O33: TICK keeps the phase in range, and the period it leaves is one of the two that the envelope bounds. -/
theorem phaseStaysBelowThePeriod : Obligations.PhaseStaysBelowThePeriod := by
  intro s henv hcan hrange h0 hpos
  refine ⟨henv.advance_lt hrange h0 hpos, _, hcan.exec_tick, fun h0' => ?_⟩
  obtain ⟨hsp, hold, hnew, -⟩ := henv
  have hkept : (tickSteps s).PhaseInRange := tickSteps_keeps_phase fun _ _ => hpos
  rw [State.PhaseInRange, tickSteps_samplePeriodNs] at hkept
  refine hkept hsp ?_
  rcases tickSteps_periodNs s with h | h
  · rw [h] at h0' ⊢
    exact hold.resolve_left h0'
  · rw [h] at h0' ⊢
    exact hnew.resolve_left h0'

/-- Settles O34: with the phase below the period the samples are the quotients themselves, and the next phase is the
advanced one or the kept remainder. -/
theorem rampStaysBelowTheVolumeAndRises : Obligations.RampStaysBelowTheVolumeAndRises := by
  intro s t henv hcan hrange h0 hpos hx
  cases hcan.exec_tick.symm.trans hx
  have hramp := rampSample_toNat hpos
  have hle := henv.samplePeriod_le h0
  have hadv := State.advancedPhase_eq (henv.advance_lt hrange h0 hpos)
  refine ⟨hramp, hramp ▸ ramp_le_pred hpos _, fun hbelow => ?_, fun hwrap hp => ?_⟩
  · obtain ⟨hperiod', hpos'⟩ := tickSteps_advances (s := s) (by omega)
    have hramp' := rampSample_toNat (s := tickSteps s) (by rwa [hperiod', hpos', hadv])
    rw [hramp, hramp', tickSteps_amplitude, hperiod', hpos', hadv]
    exact Nat.div_le_div_right (Nat.mul_le_mul_left _ (Nat.le_add_right ..))
  · obtain ⟨hperiod', hpos'⟩ := tickSteps_wraps (s := s) (by omega) hp
    have hramp' := rampSample_toNat (s := tickSteps s) (by rw [hperiod', hpos']; omega)
    exact ⟨_, by omega, rfl, by rw [hramp', tickSteps_amplitude, hperiod', hpos', hadv]⟩

end Sys2Proof.Machine
end

section
/-! PROOFS. While silent the value of `position` is unobservable (41_oscillator_tick.md R108 item 1): two states that
differ only in it stay so, or become the same, by every step. -/

namespace Sys2Proof.Machine

/-- The state with another phase. -/
def State.withPhase (s : State) (pos : Word) : State := { s with position := pos }

/-- `t` is `s`, or `s` is silent and `t` differs from it only in the phase. -/
def State.SilentTwin (s t : State) : Prop := t = s ∨ s.silent ∧ ∃ pos, t = s.withPhase pos

theorem State.silentTwin_withPhase {s : State} (h : s.silent) (pos : Word) : s.SilentTwin (s.withPhase pos) :=
  .inr ⟨h, pos, rfl⟩

theorem State.SilentTwin.shows_same {s t : State} (h : s.SilentTwin t) :
    t.outputs = s.outputs ∧ t.genHalted = s.genHalted := by
  rcases h with rfl | ⟨-, pos, rfl⟩
  · exact ⟨rfl, rfl⟩
  · exact ⟨rfl, rfl⟩

/-! Steps 4 to 6 of TICK do not look at the phase. -/

theorem playoutStep_withPhase (s : State) (pos : Word) :
    playoutStep (s.withPhase pos) = (playoutStep s).withPhase pos := by
  show (if s.timed then _ else _) = (if s.timed then _ else _ : State).withPhase pos
  split <;> rfl

theorem storeSample_withPhase (v : Sample) (s : State) (pos : Word) :
    storeSample v (s.withPhase pos) = (storeSample v s).withPhase pos := rfl

theorem commit_withPhase (s : State) (pos : Word) : commit (s.withPhase pos) = (commit s).withPhase pos := by
  show (if LegalSize s.cfg.bufMaxBytes s.bufferSize.toInt then _ else _) =
    (if LegalSize s.cfg.bufMaxBytes s.bufferSize.toInt then _ else _ : State).withPhase pos
  split <;> rfl

theorem completeBuffer_withPhase (s : State) (pos : Word) :
    completeBuffer (s.withPhase pos) = (completeBuffer s).withPhase pos := by
  show (if s.fillIndex = s.fillSize then _ else _) = (if s.fillIndex = s.fillSize then _ else _ : State).withPhase pos
  split
  · exact commit_withPhase s pos
  · rfl

/-- While silent the phase is always at or above the period, so every TICK is at a wrap boundary (R108). -/
theorem period_le_position_of_silent {s : State} (h : s.silent) : s.periodNs ≤ s.position := by
  rw [h, BitVec.le_def]
  exact Nat.zero_le _

/-- A period pending while silent is adopted (R104). -/
theorem wrapAndSwitch_silent_pending {s : State} (h : s.silent) (hp : s.switchPending) :
    wrapAndSwitch s = { s with position := 0#32, periodNs := s.newPeriodNs } := by
  rw [wrapAndSwitch, if_pos (period_le_position_of_silent h), if_pos hp]

/-- Without a pending one the wrap subtracts nothing. -/
theorem wrapAndSwitch_silent_idle {s : State} (h : s.silent) (hp : ¬ s.switchPending) : wrapAndSwitch s = s := by
  have hsub : s.position - s.periodNs = s.position := by rw [h, BitVec.sub_zero]
  rw [wrapAndSwitch, if_pos (period_le_position_of_silent h), if_neg hp, hsub]

/-- TICK while silent, from another phase: either the phase is forced to 0, and is forgotten, or the
oscillator is still silent. -/
theorem tickSteps_keeps_twin {s : State} (h : s.silent) (pos : Word) :
    (tickSteps s).SilentTwin (tickSteps (s.withPhase pos)) := by
  have hramp : rampSample (s.withPhase pos) = rampSample s :=
    (rampSample_of_silent (s := s.withPhase pos) h).trans (rampSample_of_silent h).symm
  by_cases hp : s.switchPending
  · have hw : wrapAndSwitch (advancePhase (s.withPhase pos)) = wrapAndSwitch (advancePhase s) :=
      (wrapAndSwitch_silent_pending (s := advancePhase (s.withPhase pos)) h hp).trans
        (wrapAndSwitch_silent_pending (s := advancePhase s) h hp).symm
    exact .inl (by rw [tickSteps, hramp, hw, tickSteps])
  · have hw : wrapAndSwitch (advancePhase (s.withPhase pos)) =
        (wrapAndSwitch (advancePhase s)).withPhase (pos + s.samplePeriodNs) := by
      rw [wrapAndSwitch_silent_idle (s := advancePhase (s.withPhase pos)) h hp,
        wrapAndSwitch_silent_idle (s := advancePhase s) h hp]
      rfl
    have hsilent : (tickSteps s).silent := by
      rw [State.silent, (tickSteps_phase s).2, wrapAndSwitch_silent_idle (s := advancePhase s) h hp]
      exact h
    refine .inr ⟨hsilent, pos + s.samplePeriodNs, ?_⟩
    rw [tickSteps, hramp, hw, playoutStep_withPhase, storeSample_withPhase, completeBuffer_withPhase, tickSteps]

/-- A command does the same on another phase: none reads it or writes it, or the period (R26). -/
theorem exec_command_withPhase {i : Instr} {s t : State} (hi : i ≠ .tick) (hx : exec i s = .next t) (pos : Word) :
    exec i (s.withPhase pos) = .next (t.withPhase pos) := by
  cases i with
  | setf hz => cases hx; rfl
  | setfd hz ms => cases hx; rfl
  | setv level =>
    injection hx with hx
    subst hx
    show Host.Outcome.next (if LevelAccepted level then _ else _) = _
    split <;> rfl
  | setb bytes =>
    injection hx with hx
    subst hx
    show Host.Outcome.next (if s.bufferSizeCorrupt then _ else _) =
      .next ((if s.bufferSizeCorrupt then _ else _ : State).withPhase pos)
    split <;> rfl
  | pull => cases hx; rfl
  | tick => exact absurd rfl hi

theorem exec_command_keeps_period {i : Instr} {s t : State} (hi : i ≠ .tick) (hx : exec i s = .next t) :
    t.periodNs = s.periodNs := by
  rcases exec_cases hx with ⟨_, _, _, -, rfl⟩ | ⟨_, _, _, -, rfl⟩ | ⟨_, _, _, -, rfl⟩ | ⟨_, -, rfl⟩ | ⟨htick, -⟩
  · rfl
  · rfl
  · rfl
  · rfl
  · exact absurd htick hi

/-- Every operation of a silent state does the same on another phase, up to the phase. -/
theorem exec_keeps_twin {i : Instr} {s s' : State} (h : s.silent) (pos : Word) (hx : exec i s = .next s') :
    ∃ t', exec i (s.withPhase pos) = .next t' ∧ s'.SilentTwin t' := by
  by_cases hi : i = .tick
  · subst hi
    rcases execTick_cases hx with ⟨hh, rfl⟩ | ⟨hh, hslot, rfl⟩
    · exact ⟨_, execTick_halted hh, State.silentTwin_withPhase h pos⟩
    · exact ⟨_, execTick_runs (s := s.withPhase pos) hh hslot, tickSteps_keeps_twin h pos⟩
  · exact ⟨_, exec_command_withPhase hi hx pos,
      State.silentTwin_withPhase ((exec_command_keeps_period hi hx).trans h) pos⟩

/-- The next action, to be done in the state with another phase. -/
def Action.withPhase (pos : Word) : Action → Action
  | .idle s => .idle (s.withPhase pos)
  | .reset strap s => .reset strap (s.withPhase pos)
  | .perform f s => .perform f (s.withPhase pos)

/-- What is to be done next does not depend on the phase. -/
theorem nextAction_withPhase (s : State) (pos : Word) :
    nextAction (s.withPhase pos) = (nextAction s).withPhase pos := by
  have hin : (s.withPhase pos).inputs = s.inputs := rfl
  have hfirst : tickGoesFirst (s.withPhase pos) = tickGoesFirst s := rfl
  rw [nextAction, nextAction, hin]
  cases hs : s.inputs with
  | nil => rfl
  | cons p rest =>
    dsimp only
    split
    · rfl
    · split
      · split
        · rw [arbitrate, arbitrate, hfirst]
          split <;> rfl
        · rfl
      · split <;> rfl

/-- The state in which the next action is done. -/
def Action.state : Action → State
  | .idle s => s
  | .reset _ s => s
  | .perform _ s => s

/-- Taking the next action from the queue leaves the period as it is. -/
theorem nextAction_keeps_period (s : State) : (nextAction s).state.periodNs = s.periodNs := by
  rcases nextAction_cases s with ⟨_, ha⟩ | ⟨p, rest, _, ⟨_, ha⟩ | ⟨_, ha⟩ | ⟨_, f, ins, n, _, ha⟩⟩ <;> rw [ha] <;> rfl

/-- What is presented is performed alike on another phase, up to the phase. -/
theorem performFetched_keeps_twin {f : Fetched} {s s' : State} (h : s.silent) (pos : Word)
    (hx : performFetched f s = .next s') : ∃ t', performFetched f (s.withPhase pos) = .next t' ∧ s'.SilentTwin t' := by
  rw [performFetched] at hx ⊢
  split at hx
  · exact exec_keeps_twin h pos hx
  · cases hx
    exact ⟨_, rfl, State.silentTwin_withPhase (s := answerReserved s) h pos⟩
  · cases hx
    exact ⟨_, rfl, State.silentTwin_withPhase h pos⟩

/-- The simulation step: the twin of a state whose step completes has such a step too, to a twin. -/
theorem step_keeps_twin {s s' t : State} (h : s.SilentTwin t) (hstep : step s = .next s') :
    ∃ t', step t = .next t' ∧ s'.SilentTwin t' := by
  rcases h with rfl | ⟨hsilent, pos, rfl⟩
  · exact ⟨s', hstep, .inl rfl⟩
  · have hperiod := nextAction_keeps_period s
    rw [step] at hstep
    rw [step, nextAction_withPhase]
    cases ha : nextAction s with
    | idle u =>
      rw [ha] at hstep hperiod
      cases hstep
      exact ⟨_, rfl, State.silentTwin_withPhase (hperiod.trans hsilent) pos⟩
    | reset strap u =>
      rw [ha] at hstep
      exact ⟨s', hstep, .inl rfl⟩
    | perform f u =>
      rw [ha] at hstep hperiod
      exact performFetched_keeps_twin (hperiod.trans hsilent) pos hstep

/-- The simulation along a run. -/
theorem run_keeps_twin (k : Nat) {s s' t : State} (h : s.SilentTwin t) (hrun : run k s = .next s') :
    ∃ t', run k t = .next t' ∧ s'.SilentTwin t' := by
  induction k generalizing s t with
  | zero =>
    cases hrun
    exact ⟨t, run_zero t, h⟩
  | succ k ih =>
    obtain ⟨m, hstep, hrest⟩ := run_succ_cases hrun
    obtain ⟨m', hstep', hm⟩ := step_keeps_twin h hstep
    obtain ⟨t', hrun', ht⟩ := ih hm hrest
    exact ⟨t', by rw [run, hstep']; exact hrun', ht⟩

/-- Settles O35: the run with the other phase goes through twins, and twins show the same. -/
theorem positionIsUnobservableWhileSilent : Obligations.PositionIsUnobservableWhileSilent := by
  intro k s t pos hsilent hrun
  obtain ⟨t', hrun', htwin⟩ := run_keeps_twin k (State.silentTwin_withPhase hsilent pos) hrun
  obtain ⟨hout, hhalt⟩ := htwin.shows_same
  exact ⟨t', hrun', hout, hhalt⟩

end Sys2Proof.Machine
end

section
/-! PROOFS. The oscillator over several TICKs (41_oscillator_tick.md R108 item 2, R112, R113, 42_playout_timer.md
R124). -/

namespace Sys2Proof.Machine

/-- What holds at the start, and what each of `n` TICKs completes with and carries on, holds after each of them. -/
theorem ticks_reach {P : Nat → State → Prop} {s : State} {n : Nat} (h0 : P 0 s)
    (hstep : ∀ m t, m < n → P m t → ∃ u, exec .tick t = .next u ∧ P (m + 1) u) :
    ∀ m, m ≤ n → ∃ t, ticks m s = .next t ∧ P m t := by
  intro m hm
  induction m with
  | zero => exact ⟨s, ticks_zero s, h0⟩
  | succ m ih =>
    obtain ⟨t, ht, hPt⟩ := ih (Nat.le_of_succ_le hm)
    obtain ⟨u, hu, hPu⟩ := hstep m t hm hPt
    exact ⟨u, ticks_snoc m s t u ht hu, hPu⟩

/-- `t` is `s` with `m` more slots of the same buffer filled, and nothing committed. -/
structure State.FilledTo (s : State) (m : Nat) (t : State) : Prop where
  inv : t.Inv
  halted : t.halted = false
  fillIndex : t.fillIndex.toNat = s.fillIndex.toNat + 2 * m
  fillSize : t.fillSize = s.fillSize
  outputs : t.outputs = s.outputs
  outBuf : t.outBuf = s.outBuf
  outLen : t.outLen = s.outLen

/-- Another TICK fills one slot more, where that is not the last one (R105). -/
theorem State.FilledTo.tick {s t : State} {m : Nat} (h : s.FilledTo m t)
    (hm : s.fillIndex.toNat + 2 * (m + 1) < s.fillSize.toNat) :
    ∃ u, exec .tick t = .next u ∧ s.FilledTo (m + 1) u := by
  obtain ⟨hinv, hh, hidx, hsize, houts, hout, hlen⟩ := h
  have hcan := hinv.canTick hh
  have hnot : t.fillIndex + 2#32 ≠ t.fillSize := by
    refine mt hcan.2.fills_iff.1 ?_
    rw [hidx, hsize]
    omega
  obtain ⟨hidx', -, hsize', hout', hlen', hhalt', houts', -⟩ := tickSteps_store hnot
  exact ⟨_, hcan.exec_tick,
    { inv := tickSteps_keeps_inv hinv hh hcan.2
      halted := hhalt'.trans hh
      fillIndex := by rw [hidx', hcan.2.next_toNat, hidx, Nat.mul_add_one, Nat.add_assoc]
      fillSize := hsize'.trans hsize
      outputs := houts'.trans houts
      outBuf := hout'.trans hout
      outLen := hlen'.trans hlen }⟩

/-- Short of the last slot, every TICK fills one. -/
theorem ticks_fill {s : State} (hinv : s.Inv) (hh : s.halted = false) {m : Nat}
    (hm : s.fillIndex.toNat + 2 * m < s.fillSize.toNat) : ∃ t, ticks m s = .next t ∧ s.FilledTo m t :=
  ticks_reach (P := s.FilledTo) ⟨hinv, hh, rfl, rfl, rfl, rfl, rfl⟩ (fun _ _ hk h => h.tick (by omega)) m le_rfl

/-- Settles O39: all slots but the last are filled without a Commit, and the TICK after them finds the last one. -/
theorem bufferCompletesAfterItsRemainingSlots : Obligations.BufferCompletesAfterItsRemainingSlots := by
  intro s hinv hh
  refine ⟨fun m hm => ?_, ?_⟩
  · obtain ⟨t, ht, hfilled⟩ := ticks_fill hinv hh (m := m) (by omega)
    exact ⟨t, ht, hfilled.outputs, hfilled.outBuf, hfilled.outLen, hfilled.fillIndex⟩
  · obtain ⟨heven, hfilling, -, -⟩ := hinv.shape
    obtain ⟨hlegal, hlt⟩ := hfilling hh
    have hsizeEven := hlegal.2.1
    obtain ⟨m, hm⟩ : ∃ m, s.fillSize.toNat = s.fillIndex.toNat + 2 * (m + 1) :=
      ⟨(s.fillSize.toNat - s.fillIndex.toNat) / 2 - 1, by omega⟩
    have hcount : (s.fillSize.toNat - s.fillIndex.toNat) / 2 = m + 1 := by omega
    obtain ⟨t, ht, hfilled⟩ := ticks_fill hinv hh (m := m) (by omega)
    have hcan := hfilled.inv.canTick hfilled.halted
    have hfull : t.fillIndex + 2#32 = t.fillSize := by
      refine hcan.2.fills_iff.2 ?_
      rw [hfilled.fillIndex, hfilled.fillSize]
      omega
    obtain ⟨hidx, -, -, hlen, houts, -⟩ := tickSteps_commit hfull
    rw [hcount]
    exact ⟨_, ticks_snoc m s t _ ht hcan.exec_tick, houts.trans (by rw [hfilled.outputs]), hlen.trans hfilled.fillSize,
      hidx⟩

/-- Settles O36: the first TICK adopts the period and forces the phase to 0, the second advances it by one sample
period; no Commit among them halts. -/
theorem toneFromSilenceOpensWithTwoZeroSamples : Obligations.ToneFromSilenceOpensWithTwoZeroSamples := by
  intro s hinv hh hlegal hsilent hnew
  have hcan := hinv.canTick hh
  have hpending : s.switchPending := fun hp => hnew (hp.symm.trans hsilent)
  have hwrap : s.periodNs.toNat ≤ s.advancedPhase := by
    rw [hsilent]
    exact Nat.zero_le _
  obtain ⟨hperiod, hpos⟩ := tickSteps_switches hwrap hpending
  have hcan' : (tickSteps s).CanTick :=
    (tickSteps_keeps_inv hinv hh hcan.2).canTick (tickSteps_not_halted hh hlegal)
  refine ⟨_, _, hcan.exec_tick, hcan'.exec_tick, rampSample_of_silent hsilent, hperiod, hpos,
    rampSample_of_position_zero hpos, fun hlt => ?_⟩
  have hadv : (tickSteps s).advancedPhase = s.samplePeriodNs.toNat := by
    rw [State.advancedPhase, hpos, tickSteps_samplePeriodNs, BitVec.toNat_zero, Nat.zero_add]
    exact Nat.mod_eq_of_lt s.samplePeriodNs.isLt
  obtain ⟨hperiod', hpos'⟩ := tickSteps_advances (s := tickSteps s) (by rwa [hadv, hperiod])
  have hramp := rampSample_toNat (s := tickSteps (tickSteps s)) (by rwa [hpos', hperiod', hadv, hperiod])
  rw [hramp, tickSteps_amplitude, tickSteps_amplitude, hpos', hperiod', hadv, hperiod]

/-- TICK never starts the timer (R124). -/
theorem timed_of_tickSteps_timed {s : State} (h : (tickSteps s).timed) : s.timed := by
  by_contra hs
  rw [State.timed, (tickSteps_timer s).1, playoutStep_indefinite hs] at h
  exact hs h

/-- TICK leaves the pending period alone, or the running timer expires in it and asks for silence (R120, R124). -/
theorem tickSteps_pending_cases {s : State} (hr : s.RateDerived) (ht : s.TimerInRange) :
    (tickSteps s).newPeriodNs = s.newPeriodNs ∨
      s.timed ∧ ¬ (tickSteps s).timed ∧ (tickSteps s).newPeriodNs = 0#32 := by
  obtain ⟨htime, -, hnew⟩ := tickSteps_timer s
  rw [State.timed, State.timed, htime, hnew]
  by_cases hs : s.timed
  · have hsp := hr.samplePeriod_le
    have hrem := ht.1
    obtain ⟨hus, -, hnew'⟩ := playoutStep_timed hs (by omega)
    rw [hus, hnew']
    split
    · exact .inr ⟨hs, by omega, rfl⟩
    · exact .inl rfl
  · exact .inl (by rw [playoutStep_indefinite hs])

/-- After `m` TICKs from `s` the old period is still rendered, with the phase advanced by whole sample periods, and the
pending period is the same unless the timer expired. -/
structure State.RenderedOld (s : State) (m : Nat) (t : State) : Prop where
  inv : t.Inv
  halted : t.halted = false
  legal : LegalSize t.cfg.bufMaxBytes t.bufferSize.toInt
  samplePeriodNs : t.samplePeriodNs = s.samplePeriodNs
  periodNs : t.periodNs = s.periodNs
  position : t.position.toNat = s.position.toNat + m * s.samplePeriodNs.toNat
  timed : t.timed → s.timed
  pending : t.newPeriodNs = s.newPeriodNs ∨ s.timed ∧ ¬ t.timed ∧ t.newPeriodNs = 0#32

/-- The phase that the next TICK advances to, while it fits its register. -/
theorem State.RenderedOld.advancedPhase_eq {s t : State} {m : Nat} (h : s.RenderedOld m t)
    (hpos : s.position.toNat + m * s.samplePeriodNs.toNat < s.periodNs.toNat) :
    t.advancedPhase = s.position.toNat + (m + 1) * s.samplePeriodNs.toNat := by
  have hsp := h.inv.rate.samplePeriod_le
  have hmax := h.inv.periods.1
  rw [h.samplePeriodNs] at hsp
  rw [h.periodNs] at hmax
  rw [State.advancedPhase_eq] <;> rw [h.position, h.samplePeriodNs]
  · rw [Nat.add_one_mul, Nat.add_assoc]
  · omega

/-- Another TICK renders the old period where it does not reach the wrap boundary. -/
theorem State.RenderedOld.tick {s t : State} {m : Nat} (h : s.RenderedOld m t)
    (hm : s.position.toNat + (m + 1) * s.samplePeriodNs.toNat < s.periodNs.toNat) :
    ∃ u, exec .tick t = .next u ∧ s.RenderedOld (m + 1) u := by
  have hadv := h.advancedPhase_eq (lt_of_le_of_lt (Nat.add_le_add_left (Nat.mul_le_mul_right _ m.le_succ) _) hm)
  obtain ⟨hinv, hh, hlegal, hsp, hperiod, hpos, htimed, hpending⟩ := h
  have hcan := hinv.canTick hh
  obtain ⟨hperiod', hpos'⟩ := tickSteps_advances (s := t) (by rwa [hadv, hperiod])
  refine ⟨_, hcan.exec_tick,
    { inv := tickSteps_keeps_inv hinv hh hcan.2
      halted := tickSteps_not_halted hh hlegal
      legal := by rwa [tickSteps_cfg, tickSteps_bufferSize]
      samplePeriodNs := (tickSteps_samplePeriodNs t).trans hsp
      periodNs := hperiod'.trans hperiod
      position := hpos'.trans hadv
      timed := fun hu => htimed (timed_of_tickSteps_timed hu)
      pending := ?_ }⟩
  rcases tickSteps_pending_cases hinv.rate hinv.timer with hsame | ⟨ht, hexpired, hzero⟩
  · rw [hsame]
    exact hpending.imp_right fun ⟨hs, ht, hz⟩ => ⟨hs, mt timed_of_tickSteps_timed ht, hz⟩
  · exact .inr ⟨htimed ht, hexpired, hzero⟩

/-- The TICK that reaches the wrap boundary adopts what is pending then, which is not the old period. -/
theorem State.RenderedOld.adopts {s t : State} {m : Nat} (h : s.RenderedOld m t) (hp : s.switchPending)
    (h0 : s.periodNs ≠ 0#32) (hpos : s.position.toNat + m * s.samplePeriodNs.toNat < s.periodNs.toNat)
    (hwrap : s.periodNs.toNat ≤ s.position.toNat + (m + 1) * s.samplePeriodNs.toNat) :
    ∃ u, exec .tick t = .next u ∧ u.periodNs = t.newPeriodNs ∧ u.position = 0#32 := by
  have hpending : t.switchPending := by
    rw [State.switchPending, h.periodNs]
    rcases h.pending with hsame | ⟨-, -, hzero⟩
    · rwa [hsame]
    · rwa [hzero]
  exact ⟨_, (h.inv.canTick h.halted).exec_tick,
    tickSteps_switches (by rwa [h.advancedPhase_eq hpos, h.periodNs]) hpending⟩

/-- Settles O40: `q` TICKs, the most that stay below the period, render it, and the one after them reaches the wrap
boundary. -/
theorem pendingPeriodIsAdoptedWithinOneCycle : Obligations.PendingPeriodIsAdoptedWithinOneCycle := by
  intro s hinv henv hlegal hp h0
  have ⟨hsp, _, _, hh⟩ := henv
  have hpos := hinv.phase hsp (henv.samplePeriod_le h0)
  obtain ⟨q, hq⟩ : ∃ q, q = (s.periodNs.toNat - s.position.toNat - 1) / s.samplePeriodNs.toNat := ⟨_, rfl⟩
  have hbelow : ∀ m, m ≤ q → s.position.toNat + m * s.samplePeriodNs.toNat < s.periodNs.toNat := by
    intro m hm
    have := (Nat.le_div_iff_mul_le hsp).1 (hq ▸ hm)
    omega
  have hwrap : s.periodNs.toNat ≤ s.position.toNat + (q + 1) * s.samplePeriodNs.toNat := by
    have : s.periodNs.toNat - s.position.toNat - 1 < (q + 1) * s.samplePeriodNs.toNat :=
      Nat.lt_mul_of_div_lt (by rw [← hq]; exact Nat.lt_succ_self q) hsp
    omega
  have hreach := ticks_reach (P := s.RenderedOld) (n := q)
    ⟨hinv, hh, hlegal, rfl, rfl, by rw [Nat.zero_mul, Nat.add_zero], id, .inl rfl⟩
    (fun m t hm h => h.tick (hbelow (m + 1) hm))
  refine ⟨q + 1, Nat.le_add_left 1 q, ?_, fun m hm => ?_, ?_⟩
  · rw [hq, ← Nat.add_div_right _ hsp]
    exact Nat.div_le_div_right (by omega)
  · obtain ⟨t, ht, hold⟩ := hreach m (Nat.le_of_lt_succ hm)
    exact ⟨t, ht, hold.periodNs, hold.position, hold.pending⟩
  · obtain ⟨t, ht, hold⟩ := hreach q le_rfl
    obtain ⟨u, hu, hadopted⟩ := hold.adopts hp h0 (hbelow q le_rfl) hwrap
    exact ⟨t, u, ht, hu, hadopted⟩

end Sys2Proof.Machine
end

section
/-! PROOFS. The silent oscillator with no tone requested commits zeros for ever (41_oscillator_tick.md R108 item 3). -/

namespace Sys2Proof.Machine

/-- The bytes a buffer lists are all 0. -/
abbrev Memory.AllZero (m : Memory) : Prop := ∀ c ∈ m, c.2 = 0#8

theorem Memory.AllZero.write {m : Memory} (h : m.AllZero) (a : Nat) : (m.write a 0#8).AllZero := by
  intro c hc
  rcases Memory.mem_write m a 0#8 c hc with rfl | hc
  · rfl
  · exact h c hc

theorem Memory.AllZero.write16 {m : Memory} (h : m.AllZero) (a : Nat) : (m.write16 a 0#16).AllZero :=
  (h.write a).write (a + 1)

/-- At a listed offset a listed byte is read. -/
theorem Memory.exists_read_of_mem {m : Memory} {a : Nat} (h : a ∈ m.map Prod.fst) :
    ∃ b, m.read a = some b ∧ (a, b) ∈ m := by
  induction m with
  | nil => cases h
  | cons c m ih =>
    obtain ⟨k, b⟩ := c
    by_cases hk : k = a
    · subst hk
      exact ⟨b, if_pos rfl, List.mem_cons_self⟩
    · obtain ⟨b', hread, hmem⟩ := ih ((List.mem_cons.1 h).resolve_left (Ne.symm hk))
      exact ⟨b', (if_neg hk).trans hread, List.mem_cons_of_mem _ hmem⟩

/-- So a buffer that lists only zeros reads as 0 at every listed offset, whatever the free bytes are. -/
theorem Memory.AllZero.byteAt {m : Memory} (h : m.AllZero) {n a : Nat} (hm : m.map Prod.fst = List.range n)
    (ha : a < n) (free : Nat → Byte) : m.byteAt free a = 0#8 := by
  obtain ⟨b, hread, hmem⟩ := Memory.exists_read_of_mem (hm ▸ List.mem_range.2 ha)
  rw [Memory.byteAt, hread]
  exact h _ hmem

theorem Memory.AllZero.copyOf {m : Memory} (h : m.AllZero) {n : Nat} (hm : m.map Prod.fst = List.range n)
    (free : Nat → Byte) : (m.copyOf free n).AllZero := by
  intro c hc
  obtain ⟨a, ha, rfl⟩ := List.mem_map.1 hc
  exact h.byteAt hm (List.mem_range.1 ha) free

/-- An enabled TICK keeps it that both buffers list exactly what has been stored, from any such state. -/
theorem tickSteps_keeps_written {s : State} (hcan : s.CanTick) (h : s.BuffersWritten) :
    (tickSteps s).BuffersWritten := by
  obtain ⟨hfill, hcommitted⟩ := h
  rw [State.BuffersWritten]
  by_cases hfull : s.fillIndex + 2#32 = s.fillSize
  · obtain ⟨hidx, hbuf, hout, hlen, -⟩ := tickSteps_commit hfull
    rw [hidx, hbuf, hout, hlen]
    exact ⟨rfl, Memory.copyOf_offsets ..⟩
  · obtain ⟨hidx, hbuf, -, hout, hlen, -⟩ := tickSteps_store hfull
    rw [hidx, hbuf, hout, hlen, hcan.2.next_toNat]
    exact ⟨Memory.write16_offsets _ _ _ hfill, hcommitted⟩

/-- While the sample is 0, TICK keeps it that both buffers list only zeros: a Commit copies the slots stored. -/
theorem tickSteps_keeps_zeros {s : State} (hcan : s.CanTick) (hwritten : s.BuffersWritten)
    (hramp : rampSample s = 0#16) (hfill : s.fillBuf.AllZero) (hout : s.outBuf.AllZero) :
    (tickSteps s).fillBuf.AllZero ∧ (tickSteps s).outBuf.AllZero := by
  have hstored := hfill.write16 s.fillIndex.toNat
  by_cases hfull : s.fillIndex + 2#32 = s.fillSize
  · obtain ⟨-, hbuf', hout', -⟩ := tickSteps_commit hfull
    have hlisted := Memory.write16_offsets s.fillBuf s.fillIndex.toNat 0#16 hwritten.1
    rw [hcan.2.fills_iff.1 hfull] at hlisted
    rw [hbuf', hout', hramp]
    exact ⟨nofun, hstored.copyOf hlisted _⟩
  · obtain ⟨-, hbuf', -, hout', -⟩ := tickSteps_store hfull
    rw [hbuf', hout', hramp]
    exact ⟨hstored, hout⟩

/-- TICK keeps the silence, and the zeros. -/
theorem tickSteps_keeps_silence {s : State} (hcan : s.CanTick) (hwritten : s.BuffersWritten)
    (h : s.SilentWithZeros) : (tickSteps s).SilentWithZeros := by
  obtain ⟨hsilent, hnone, hfill, hout⟩ := h
  refine ⟨?_, ?_, tickSteps_keeps_zeros hcan hwritten (rampSample_of_silent hsilent) hfill hout⟩
  · exact (tickSteps_periodNs s).elim (·.trans hsilent) (·.trans hnone)
  · exact (tickSteps_newPeriodNs s).elim (·.trans hnone) id

/-- Settles O50: the sample is 0 because the oscillator is silent, so TICK keeps both what is listed and the zeros. -/
theorem silentTickStoresZeroAndStaysSilent : Obligations.SilentTickStoresZeroAndStaysSilent :=
  fun _ hcan hwritten h => ⟨_, hcan.exec_tick, rampSample_of_silent h.1, tickSteps_keeps_written hcan hwritten,
    tickSteps_keeps_silence hcan hwritten h⟩

/-- Under the invariant every operation completes: the commands do in every state, and TICK is ignored or enabled. -/
theorem State.Inv.exec_next {s : State} (h : s.Inv) (i : Instr) : ∃ t, exec i s = .next t := by
  by_cases hi : i = .tick
  · subst hi
    cases hh : s.halted with
    | true => exact ⟨s, execTick_halted hh⟩
    | false => exact ⟨_, (h.canTick hh).exec_tick⟩
  · exact exec_command_next i s hi

/-- Every operation but SETF and SETFD keeps the silence (R108 item 3). -/
theorem exec_keeps_silence {i : Instr} {s t : State} (hi : frequencyCommand i = false) (hinv : s.Inv)
    (h : s.SilentWithZeros) (hx : exec i s = .next t) : t.SilentWithZeros := by
  rcases exec_cases hx with ⟨_, _, _, hcmd, -⟩ | ⟨_, _, _, -, rfl⟩ | ⟨_, _, _, -, rfl⟩ | ⟨_, -, rfl⟩ | ⟨-, htick⟩
  · rcases hcmd with ⟨rfl, -⟩ | rfl <;> cases hi
  · exact h
  · exact h
  · exact h
  · rcases execTick_cases htick with ⟨-, rfl⟩ | ⟨hh, hslot, rfl⟩
    · exact h
    · exact tickSteps_keeps_silence ⟨hh, hslot⟩ hinv.written h

/-- Whatever is presented but a SETF or a SETFD completes, and keeps the invariant and the silence. -/
theorem performFetched_keeps_silence {f : Fetched} {s : State}
    (hf : ∀ i, decode f = .instr i → frequencyCommand i = false) (hinv : s.Inv) (h : s.SilentWithZeros) :
    ∃ t, performFetched f s = .next t ∧ t.Inv ∧ t.SilentWithZeros := by
  cases hd : decode f with
  | instr i =>
    obtain ⟨t, hx⟩ := hinv.exec_next i
    exact ⟨t, (performFetched_instr hd s).trans hx, exec_keeps_inv (wellFormed_of_decode hd) hinv hx,
      exec_keeps_silence (hf i hd) hinv h hx⟩
  | reserved op => exact ⟨_, performFetched_reserved hd s, hinv.frame .., h⟩
  | inactive => exact ⟨s, by rw [performFetched, hd], hinv, h⟩

/-- Settles O51: invariant and silence are kept along the list, and in such a state OUT lists zeros only. -/
theorem silentOscillatorStaysSilentForEver : Obligations.SilentOscillatorStaysSilentForEver := by
  intro s fs hinv h hfs
  obtain ⟨u, hu, hinv', hzeros⟩ := performAll_keeps (P := fun _ t => t.Inv ∧ t.SilentWithZeros) fs
    (fun f hf _ _ ht => performFetched_keeps_silence (hfs f hf) ht.1 ht.2) 0 s ⟨hinv, h⟩
  have ⟨hsilent, _, _, hout⟩ := hzeros
  exact ⟨u, hu, hzeros, rampSample_of_silent hsilent,
    fun a ha => Memory.AllZero.byteAt hout hinv'.written.2 ha _⟩

end Sys2Proof.Machine
end

section
/-! PROOFS. The playout timer: the loop of 42_playout_timer.md R120 is the closed form of R121, over one TICK and over a
whole timed tone (R123). -/

namespace Sys2Proof.Machine

/-- One iteration of the loop, as three registers at once. -/
theorem countdownBody_eq (c : Countdown) :
    countdownBody c =
      { timeUs := c.timeUs - 1
        soFarNs := c.soFarNs - 1000
        newPeriodNs := if c.timeUs = 1 then 0 else c.newPeriodNs } := by
  obtain ⟨us, ns, period⟩ := c
  rcases us with _ | _ | us
  · rfl
  · rfl
  · simp [countdownBody]

/-- Where the loop stops, the closed form changes nothing; a countdown that is over has asked for silence. -/
theorem countdownClosed_of_le {c : Countdown} (h0 : c.timeUs = 0 → c.newPeriodNs = 0) (h : c.soFarNs ≤ 1000) :
    countdownClosed c = c := by
  obtain ⟨us, ns, period⟩ := c
  have hk : (ns - 1) / 1000 = 0 := Nat.div_eq_of_lt (by dsimp only at h; omega)
  rw [countdownClosed_mk, hk, Nat.zero_min]
  congr 1
  split
  · exact (h0 (Nat.le_zero.1 ‹_›)).symm
  · rfl

/-- A countdown that is over stays over, with the silence asked for. -/
theorem countdownBody_keeps_silence {c : Countdown} (h0 : c.timeUs = 0 → c.newPeriodNs = 0) :
    (countdownBody c).timeUs = 0 → (countdownBody c).newPeriodNs = 0 := by
  rw [countdownBody_eq]
  dsimp only
  intro hus
  split
  · rfl
  · exact h0 (by omega)

/-- One iteration before it leaves the closed form as it is: one microsecond less is to be counted off. -/
theorem countdownClosed_body {c : Countdown} (h : 1000 < c.soFarNs) :
    countdownClosed (countdownBody c) = countdownClosed c := by
  obtain ⟨us, ns, period⟩ := c
  dsimp only at h
  have hk : (ns - 1) / 1000 = (ns - 1000 - 1) / 1000 + 1 := by omega
  rw [countdownBody_eq, countdownClosed_mk, countdownClosed_mk, hk, Countdown.mk.injEq]
  dsimp only
  refine ⟨by omega, by omega, ?_⟩
  simp only [Nat.sub_le_iff_le_add]
  split
  · rfl
  · exact if_neg (by omega)

/-- The loop, run to its end, is the closed form (R121). -/
theorem countdownLoop_eq_closed (fuel : Nat) {c : Countdown} (h0 : c.timeUs = 0 → c.newPeriodNs = 0)
    (hfuel : c.soFarNs ≤ 1000 * fuel + 1000) : countdownLoop fuel c = countdownClosed c := by
  induction fuel generalizing c with
  | zero => exact (countdownClosed_of_le h0 hfuel).symm
  | succ fuel ih =>
    rw [countdownLoop]
    split
    · have hbody : (countdownBody c).soFarNs ≤ 1000 * fuel + 1000 := by
        rw [countdownBody_eq]
        dsimp only
        omega
      rw [ih (countdownBody_keeps_silence h0) hbody, countdownClosed_body ‹_›]
    · exact (countdownClosed_of_le h0 (Nat.not_lt.1 ‹_›)).symm

/-- What counting off leaves of a total is at most 1000 ns (R121). -/
theorem sub_countdownIterations_le (total : Nat) : total - 1000 * countdownIterations total ≤ 1000 := by
  rw [countdownIterations]
  omega

theorem mul_countdownIterations_le (total : Nat) : 1000 * countdownIterations total ≤ total :=
  (Nat.mul_div_le ..).trans (Nat.sub_le ..)

theorem countdownIterations_mono {total total' : Nat} (h : total ≤ total') :
    countdownIterations total ≤ countdownIterations total' :=
  Nat.div_le_div_right (Nat.sub_le_sub_right h 1)

/-- `ns` more, from the remainder that a total has left, count off what is missing to the microseconds of the sum. -/
theorem countdownIterations_add (total ns : Nat) :
    countdownIterations (total - 1000 * countdownIterations total + ns) =
      countdownIterations (total + ns) - countdownIterations total := by
  simp only [countdownIterations]
  omega

/-- Of `d` ms the last microsecond is counted off when the total is strictly past them (R123). -/
theorem countdownIterations_lt_iff {d : Nat} (hd : 0 < d) (total : Nat) :
    countdownIterations total < 1000 * d ↔ total ≤ 10 ^ 6 * d := by
  rw [countdownIterations, Nat.div_lt_iff_lt_mul (by decide)]
  omega

theorem State.timed_iff (s : State) : s.timed ↔ s.playoutTimeUs ≠ 0#42 := by
  rw [State.timed, Nat.pos_iff_ne_zero, ne_eq, ne_eq, ← BitVec.toNat_inj, BitVec.toNat_zero]

/-- While Indefinite, TICK leaves the timer alone (R120). -/
theorem tickSteps_indefinite {s : State} (h : ¬ s.timed) :
    (tickSteps s).playoutTimeUs = s.playoutTimeUs ∧ (tickSteps s).playoutSoFarNs = s.playoutSoFarNs ∧
      (tickSteps s).newPeriodNs = s.newPeriodNs := by
  obtain ⟨htime, hrem, hnew⟩ := tickSteps_timer s
  rw [htime, hrem, hnew, playoutStep_indefinite h]
  exact ⟨rfl, rfl, rfl⟩

/-- While Timed, TICK counts off the microseconds of the remainder with the sample period added (R121); the bounds are
those of R16 and R18. -/
theorem tickSteps_timed {s : State} (h : s.timed) (hrem : s.playoutSoFarNs.toNat ≤ 1000)
    (hsp : s.samplePeriodNs.toNat ≤ 10 ^ 9) :
    let sum := s.playoutSoFarNs.toNat + s.samplePeriodNs.toNat
    (tickSteps s).playoutTimeUs.toNat =
        s.playoutTimeUs.toNat - min (countdownIterations sum) s.playoutTimeUs.toNat ∧
      (tickSteps s).playoutSoFarNs.toNat = sum - 1000 * countdownIterations sum ∧
      (tickSteps s).newPeriodNs =
        (if s.playoutTimeUs.toNat ≤ countdownIterations sum then 0#32 else s.newPeriodNs) := by
  obtain ⟨htime, hrem', hnew⟩ := tickSteps_timer s
  rw [htime, hrem', hnew]
  exact playoutStep_timed h (by omega)

/-- Settles O28: the closed form that the model computes is the loop run to its end, and an Indefinite timer does
nothing. -/
theorem tickRunsTheCountdownLoop : Obligations.TickRunsTheCountdownLoop := by
  intro s hcan hrem hsp
  refine ⟨_, hcan.exec_tick, fun h0 => ?_, fun h0 fuel hfuel => ?_⟩
  · obtain ⟨htime, hrest⟩ := tickSteps_indefinite (mt s.timed_iff.1 (not_not.2 h0))
    exact ⟨htime.trans h0, hrest⟩
  · have ht := s.timed_iff.2 h0
    obtain ⟨hus, hns, hnew⟩ := tickSteps_timed ht hrem hsp
    rw [countdownLoop_eq_closed fuel (fun hus0 => absurd hus0 ht.ne') hfuel, countdownClosed, hus, hns, hnew,
      apply_ite BitVec.toNat, BitVec.toNat_zero]

/-- Settles O29: the step of a Timed TICK, whose remainder the division by 1000 keeps at most 1000. -/
theorem countdownStepHasItsClosedForm : Obligations.CountdownStepHasItsClosedForm := by
  intro s hcan hrem hsp h0
  obtain ⟨hus, hns, hnew⟩ := tickSteps_timed (s.timed_iff.2 h0) hrem hsp
  refine ⟨_, hcan.exec_tick, hns ▸ sub_countdownIterations_le _, _, rfl, hns, hus,
    fun hle => hnew.trans (if_pos hle), fun hlt => hnew.trans (if_neg (Nat.not_le.2 hlt))⟩

/-- The strobe at 1 is the only thing presented that is TICK (R61, R69). -/
theorem decode_eq_tick_iff (f : Fetched) : decode f = .instr .tick ↔ f = .strobe 1#1 := by
  refine ⟨fun h => ?_, fun h => h ▸ rfl⟩
  cases f with
  | strobe en =>
    rw [decode] at h
    split at h
    · rw [‹en = 1#1›]
    · cases h
  | command w =>
    rw [← commandWord_fields w] at h
    rcases decode_commandWord_cases h with ⟨-, h⟩ | ⟨-, h⟩ | ⟨-, h⟩ | ⟨-, h⟩ | ⟨-, h⟩ <;> cases h

/-- What is presented and is no SETF or SETFD is a TICK, or writes at most the volume and the configured size, and that
only as a SETB requests it (10_state.md R26). -/
theorem performFetched_noFrequency_cases {f : Fetched} {s t : State}
    (hf : ∀ i, decode f = .instr i → frequencyCommand i = false) (h : performFetched f s = .next t) :
    (f = .strobe 1#1 ∧ execTick s = .next t) ∨
    (f ≠ .strobe 1#1 ∧ ∃ amp size outs, t = { s with amplitude := amp, bufferSize := size, outputs := outs } ∧
      (size = s.bufferSize ∨ ∃ bytes, decode f = .instr (.setb bytes) ∧ size = BitVec.ofInt 32 bytes)) := by
  by_cases hstrobe : f = .strobe 1#1
  · subst hstrobe
    exact .inl ⟨rfl, h⟩
  refine .inr ⟨hstrobe, ?_⟩
  cases hd : decode f with
  | reserved op =>
    cases (performFetched_reserved hd s).symm.trans h
    exact ⟨_, _, _, rfl, .inl rfl⟩
  | inactive =>
    rw [performFetched, hd] at h
    cases h
    exact ⟨_, _, _, rfl, .inl rfl⟩
  | instr i =>
    rw [performFetched_instr hd] at h
    rcases exec_cases h with ⟨_, _, _, hcmd, -⟩ | ⟨_, _, _, -, rfl⟩ | ⟨bytes, _, _, rfl, -⟩ | ⟨_, -, rfl⟩ | ⟨rfl, -⟩
    · rcases hcmd with ⟨rfl, -⟩ | rfl <;> cases hf _ hd
    · exact ⟨_, _, _, rfl, .inl rfl⟩
    · by_cases hcorrupt : s.bufferSizeCorrupt
      · cases (exec_setb_corrupt hcorrupt bytes).symm.trans h
        exact ⟨_, _, _, rfl, .inl rfl⟩
      · cases (exec_setb_stores hcorrupt bytes).symm.trans h
        exact ⟨_, _, _, rfl, .inr ⟨bytes, rfl, rfl⟩⟩
    · exact ⟨_, _, _, rfl, .inl rfl⟩
    · exact absurd ((decode_eq_tick_iff f).1 hd) hstrobe

/-- Under the invariant whatever is presented completes and keeps it. -/
theorem State.Inv.performFetched_next {s : State} (h : s.Inv) (f : Fetched) :
    ∃ t, performFetched f s = .next t ∧ t.Inv := by
  cases hd : decode f with
  | instr i =>
    obtain ⟨t, hx⟩ := h.exec_next i
    exact ⟨t, (performFetched_instr hd s).trans hx, exec_keeps_inv (wellFormed_of_decode hd) h hx⟩
  | reserved op => exact ⟨_, performFetched_reserved hd s, h.frame ..⟩
  | inactive => exact ⟨s, by rw [performFetched, hd], h⟩

/-- `t` is `n` TICKs after `s`, which requested a tone of `d` ms: as long as the audio generated, `n` sample periods, is
at most `d` ms, the countdown is the rule's; past that the timer has expired (R123). -/
structure State.CountedDown (s : State) (d n : Nat) (t : State) : Prop where
  samplePeriodNs : t.samplePeriodNs = s.samplePeriodNs
  running : n * s.samplePeriodNs.toNat ≤ 10 ^ 6 * d →
    t.playoutTimeUs.toNat = 1000 * d - countdownIterations (n * s.samplePeriodNs.toNat) ∧
      t.playoutSoFarNs.toNat =
        n * s.samplePeriodNs.toNat - 1000 * countdownIterations (n * s.samplePeriodNs.toNat) ∧
      t.newPeriodNs = s.newPeriodNs
  expired : 10 ^ 6 * d < n * s.samplePeriodNs.toNat → t.playoutTimeUs = 0#42 ∧ t.newPeriodNs = 0#32

/-- Right after the request nothing has been counted off. -/
theorem State.countedDown_zero {s : State} {d : Nat} (htime : s.playoutTimeUs.toNat = 1000 * d)
    (hrem : s.playoutSoFarNs = 0#32) : s.CountedDown d 0 s where
  samplePeriodNs := rfl
  running _ := by
    rw [htime, hrem, Nat.zero_mul]
    exact ⟨rfl, rfl, rfl⟩
  expired h := by omega

/-- The countdown is not over as long as the audio is at most `d` ms. -/
theorem State.CountedDown.timed {s t : State} {d n : Nat} (h : s.CountedDown d n t) (hd : 0 < d)
    (hn : n * s.samplePeriodNs.toNat ≤ 10 ^ 6 * d) : t.timed := by
  rw [State.timed, (h.running hn).1]
  exact Nat.sub_pos_of_lt ((countdownIterations_lt_iff hd _).2 hn)

/-- Another TICK counts off the microseconds that its audio adds to the total; where the total passes `d` ms, that is
all that is left. -/
theorem State.CountedDown.tick_running {s t : State} {d n : Nat} (h : s.CountedDown d n t) (hd : 0 < d) (hinv : t.Inv)
    (hn : n * s.samplePeriodNs.toNat ≤ 10 ^ 6 * d) : s.CountedDown d (n + 1) (tickSteps t) := by
  obtain ⟨hus, hns, hnew⟩ := h.running hn
  have hwhole := mul_countdownIterations_le (n * s.samplePeriodNs.toNat)
  have hmono := countdownIterations_mono (Nat.le_add_right (n * s.samplePeriodNs.toNat) s.samplePeriodNs.toNat)
  obtain ⟨hus', hns', hnew'⟩ := tickSteps_timed (h.timed hd hn) hinv.timer.1 hinv.rate.samplePeriod_le
  rw [hus, hns, h.samplePeriodNs, countdownIterations_add] at hus' hnew'
  rw [hns, h.samplePeriodNs, countdownIterations_add] at hns'
  have htotal := Nat.add_one_mul n s.samplePeriodNs.toNat
  refine ⟨(tickSteps_samplePeriodNs t).trans h.samplePeriodNs, fun hle => ?_, fun hlt => ?_⟩
  · rw [htotal] at hle ⊢
    have hlast := (countdownIterations_lt_iff hd _).2 hle
    refine ⟨by omega, by omega, ?_⟩
    rw [hnew', if_neg (by omega), hnew]
  · rw [htotal] at hlt
    have hlast := (countdownIterations_lt_iff hd _).not.2 (Nat.not_le.2 hlt)
    refine ⟨BitVec.eq_of_toNat_eq ?_, by rw [hnew', if_pos (by omega)]⟩
    rw [hus', BitVec.toNat_zero]
    omega

/-- Once expired the timer stays so (R125), since it is Indefinite, and the total has passed `d` ms for good. -/
theorem State.CountedDown.tick_expired {s t : State} {d n : Nat} (h : s.CountedDown d n t)
    (hn : 10 ^ 6 * d < n * s.samplePeriodNs.toNat) : s.CountedDown d (n + 1) (tickSteps t) := by
  obtain ⟨hus, hnew⟩ := h.expired hn
  obtain ⟨hus', -, hnew'⟩ := tickSteps_indefinite (mt t.timed_iff.1 (not_not.2 hus))
  have hlt : 10 ^ 6 * d < (n + 1) * s.samplePeriodNs.toNat :=
    hn.trans_le (Nat.mul_le_mul_right _ n.le_succ)
  exact ⟨(tickSteps_samplePeriodNs t).trans h.samplePeriodNs, fun hle => absurd hle (Nat.not_le.2 hlt),
    fun _ => ⟨hus'.trans hus, hnew'.trans hnew⟩⟩

/-- What is presented between the TICKs leaves the countdown alone, and a TICK continues it, unless the generator has
halted. -/
theorem performFetched_keeps_countedDown {f : Fetched} {s t : State} {d n : Nat} (hd : 0 < d)
    (hf : ∀ i, decode f = .instr i → frequencyCommand i = false) (hinv : t.Inv)
    (h : t.halted = false → s.CountedDown d n t) :
    ∃ u, performFetched f t = .next u ∧ u.Inv ∧
      (u.halted = false → s.CountedDown d (n + if f = .strobe 1#1 then 1 else 0) u) := by
  obtain ⟨u, hu, hinv'⟩ := hinv.performFetched_next f
  refine ⟨u, hu, hinv', fun hh => ?_⟩
  rcases performFetched_noFrequency_cases hf hu with ⟨rfl, htick⟩ | ⟨hne, _, _, _, rfl, -⟩
  · rcases execTick_cases htick with ⟨hhalted, rfl⟩ | ⟨hh', -, rfl⟩
    · cases hh.symm.trans hhalted
    · rcases le_or_gt (n * s.samplePeriodNs.toNat) (10 ^ 6 * d) with hn | hn
      · exact (h hh').tick_running hd hinv hn
      · exact (h hh').tick_expired hn
  · rw [if_neg hne]
    exact ⟨(h hh).samplePeriodNs, (h hh).running, (h hh).expired⟩

/-- The generator runs, and its configured size is one that the next Commit can allocate (R106). -/
structure State.RunsWithLegalSize (maxBytes : Nat) (s : State) : Prop where
  inv : s.Inv
  bufMaxBytes : s.cfg.bufMaxBytes = maxBytes
  halted : s.halted = false
  legal : LegalSize maxBytes s.bufferSize.toInt

/-- A requested legal size is stored as it is (R83). -/
theorem toInt_ofInt_of_legalSize {c : Config} (hc : LegalConfig c) {bytes : Int} (h : LegalSize c.bufMaxBytes bytes) :
    (BitVec.ofInt 32 bytes).toInt = bytes :=
  BitVec.toInt_ofInt_eq_self (by decide) (by omega) (by omega)

/-- With legal sizes requested only, no Commit halts the generator (70_reset_and_hazards.md R185). -/
theorem performFetched_keeps_running {f : Fetched} {s : State} {maxBytes : Nat}
    (hf : ∀ i, decode f = .instr i → frequencyCommand i = false)
    (hsize : ∀ bytes, decode f = .instr (.setb bytes) → LegalSize maxBytes bytes) (h : s.RunsWithLegalSize maxBytes) :
    ∃ t, performFetched f s = .next t ∧ t.RunsWithLegalSize maxBytes := by
  obtain ⟨hinv, rfl, hh, hlegal⟩ := h
  obtain ⟨t, ht, hinv'⟩ := hinv.performFetched_next f
  refine ⟨t, ht, ?_⟩
  rcases performFetched_noFrequency_cases hf ht with ⟨-, htick⟩ | ⟨-, _, _, _, rfl, hstored⟩
  · rw [execTick_runs hh (hinv.canTick hh).2] at htick
    cases htick
    exact ⟨hinv', by rw [tickSteps_cfg], tickSteps_not_halted hh hlegal, by rwa [tickSteps_bufferSize]⟩
  · refine ⟨hinv', rfl, hh, ?_⟩
    rcases hstored with rfl | ⟨bytes, hd, rfl⟩
    · exact hlegal
    · rw [toInt_ofInt_of_legalSize hinv.config (hsize bytes hd)]
      exact hsize bytes hd

/-- Settles O41: the countdown is carried along the list, counted in TICKs, and expires where their audio passes `d` ms;
that the generator runs on is kept along the same list. -/
theorem timedToneExpiresInItsTick : Obligations.TimedToneExpiresInItsTick := by
  intro s t hz d fs hinv hsp hhz hms hd hx hfs
  have hinv' : t.Inv :=
    exec_keeps_inv (i := .setfd hz d) (Bool.and_eq_true_iff.2 ⟨decide_eq_true hhz, decide_eq_true hms⟩) hinv hx
  cases hx
  obtain ⟨u, hu, -, hcount⟩ := performAll_keeps
    (P := fun n u => u.Inv ∧ (u.halted = false → State.CountedDown _ d n u)) fs
    (fun f hf n u h => performFetched_keeps_countedDown hd (hfs f hf) h.1 h.2) 0 _
    ⟨hinv', fun _ => State.countedDown_zero (msToUs_toNat d hms) rfl⟩
  refine ⟨u, hu, fun hh hlegal hsizes => ?_, fun hh => ?_⟩
  · obtain ⟨v, hv, hruns⟩ := performAll_keeps (P := fun _ => State.RunsWithLegalSize s.cfg.bufMaxBytes) fs
      (fun f hf _ _ => performFetched_keeps_running (hfs f hf) (hsizes f hf)) 0 _ ⟨hinv', rfl, hh, hlegal⟩
    cases hu.symm.trans hv
    exact hruns.halted
  · have h := hcount hh
    rw [Nat.zero_add] at h
    refine ⟨fun hn => ?_, fun hn => h.expired ((Nat.div_lt_iff_lt_mul hsp).1 hn)⟩
    have hle := (Nat.le_div_iff_mul_le hsp).1 hn
    obtain ⟨hus, hns, hnew⟩ := h.running hle
    exact ⟨hus, hns, h.timed hd hle, hnew⟩

end Sys2Proof.Machine
end

section
/-! PROOFS. PULL, and the committed buffer between Commits (43_pull.md R140 to R142). -/

namespace Sys2Proof.Machine

/-- The whole committed buffer, as PULL answers with it (R140). -/
def State.pullResponse (s : State) : Response where
  status := .ok
  len := s.outLen
  data := (List.range s.outLen.toNat).map s.outByte

theorem exec_pull (s : State) :
    exec .pull s = .next { s with outputs := s.outputs ++ [.response s.pullResponse] } := rfl

/-- From `s` to `t` nothing was committed: no pulse was shown, and OUT and the free values that its unwritten bytes read
as are those of `s`. -/
structure State.OutKept (s t : State) : Prop where
  outBuf : t.outBuf = s.outBuf
  outLen : t.outLen = s.outLen
  bufGen : t.bufGen = s.bufGen
  pulses : t.pulses = s.pulses

theorem State.OutKept.refl (s : State) : s.OutKept s := ⟨rfl, rfl, rfl, rfl⟩

theorem State.OutKept.trans {s t u : State} (h : s.OutKept t) (h' : t.OutKept u) : s.OutKept u :=
  ⟨h'.outBuf.trans h.outBuf, h'.outLen.trans h.outLen, h'.bufGen.trans h.bufGen, h'.pulses.trans h.pulses⟩

theorem State.OutKept.pullResponse_eq {s t : State} (h : s.OutKept t) : t.pullResponse = s.pullResponse := by
  have hbyte : t.outByte = s.outByte := by
    funext a
    rw [State.outByte, State.outByte, h.outBuf, h.bufGen]
  rw [State.pullResponse, State.pullResponse, h.outLen, hbyte]

/-- No command commits (R84, R140). -/
theorem exec_command_keeps_out {i : Instr} {s t : State} (hi : i ≠ .tick) (hx : exec i s = .next t) :
    s.OutKept t := by
  rcases exec_cases hx with ⟨_, _, _, -, rfl⟩ | ⟨_, _, _, -, rfl⟩ | ⟨_, _, _, -, rfl⟩ | ⟨_, -, rfl⟩ | ⟨htick, -⟩
  · exact ⟨rfl, rfl, rfl, pulses_of_response rfl⟩
  · exact ⟨rfl, rfl, rfl, pulses_of_response rfl⟩
  · exact ⟨rfl, rfl, rfl, pulses_of_response rfl⟩
  · exact ⟨rfl, rfl, rfl, pulses_of_response rfl⟩
  · exact absurd htick hi

/-- The six steps of TICK do not commit unless the slot is the last one (R105). -/
theorem tickSteps_keeps_out {s : State} (h : s.fillIndex + 2#32 ≠ s.fillSize) : s.OutKept (tickSteps s) := by
  obtain ⟨-, -, -, hbuf, hlen, -, houts, hgen⟩ := tickSteps_store h
  exact ⟨hbuf, hlen, hgen, by rw [State.pulses, houts, State.pulses]⟩

/-- A Commit pulses once (R106, R141). -/
theorem tickSteps_commit_pulses {s : State} (h : s.fillIndex + 2#32 = s.fillSize) :
    (tickSteps s).pulses = s.pulses + 1 := by
  obtain ⟨-, -, -, -, houts, -⟩ := tickSteps_commit h
  simp [State.pulses, houts]

/-- An operation commits and pulses once, as the TICK that fills the buffer does, or it keeps OUT (R141). -/
theorem exec_commits_or_keeps_out {i : Instr} {s t : State} (hx : exec i s = .next t) :
    (i = .tick ∧ s.halted = false ∧ s.fillIndex.toNat + 2 = s.fillSize.toNat ∧ t.pulses = s.pulses + 1) ∨
    s.OutKept t := by
  by_cases hi : i = .tick
  · subst hi
    rcases execTick_cases hx with ⟨-, rfl⟩ | ⟨hh, hslot, rfl⟩
    · exact .inr (.refl t)
    · by_cases hfull : s.fillIndex + 2#32 = s.fillSize
      · exact .inl ⟨rfl, hh, hslot.fills_iff.1 hfull, tickSteps_commit_pulses hfull⟩
      · exact .inr (tickSteps_keeps_out hfull)
  · exact .inr (exec_command_keeps_out hi hx)

theorem exec_keeps_inputs {i : Instr} {s t : State} (hx : exec i s = .next t) : t.inputs = s.inputs := by
  rcases exec_frame_cases hx with ⟨_, _, _, _, _, _, rfl⟩ | ⟨-, rfl⟩ | ⟨-, -, rfl⟩
  · rfl
  · rfl
  · exact tickSteps_inputs s

/-- A step takes from the queue and puts no reset into it (R47, R48). -/
theorem step_keeps_noReset {s t : State} (hstep : step s = .next t) (hs : s.NoReset) : t.NoReset := by
  rcases step_cases hstep with ⟨-, rfl⟩ | ⟨p, rest, hin, ⟨-, -, rfl⟩ | ⟨hp, ins, n, hleft, hperf⟩⟩
  · exact hs
  · exact fun q hq => hs q (hin ▸ List.mem_cons_of_mem p hq)
  · have hins : ∀ q ∈ ins, q.rst = false :=
      hleft.noReset hp fun q hq => hs q (hin ▸ List.mem_cons_of_mem p hq)
    have ht : t.inputs = ins := by
      rcases hperf with ⟨f, i, -, hx⟩ | rfl | rfl
      · exact exec_keeps_inputs hx
      · rfl
      · rfl
    rwa [State.NoReset, ht]

/-- OUT is replaced between `s` and `t` only with a pulse: `t` shows more of them than `s`, or OUT is kept. -/
def State.PulsedOrOutKept (s t : State) : Prop := s.pulses < t.pulses ∨ s.OutKept t

theorem State.PulsedOrOutKept.trans {s t u : State} (h : s.PulsedOrOutKept t) (h' : t.PulsedOrOutKept u) :
    s.PulsedOrOutKept u := by
  rcases h with hlt | hkept <;> rcases h' with hlt' | hkept'
  · exact .inl (hlt.trans hlt')
  · exact .inl (hlt.trans_eq hkept'.pulses.symm)
  · exact .inl (hkept.pulses.symm.trans_lt hlt')
  · exact .inr (hkept.trans hkept')

theorem State.PulsedOrOutKept.outKept {s t : State} (h : s.PulsedOrOutKept t) (hp : t.pulses = s.pulses) :
    s.OutKept t := h.resolve_left hp.not_gt

theorem exec_pulsedOrOutKept {i : Instr} {s t : State} (hx : exec i s = .next t) : s.PulsedOrOutKept t := by
  rcases exec_commits_or_keeps_out hx with ⟨-, -, -, hpulses⟩ | hkept
  · exact .inl (hpulses ▸ s.pulses.lt_succ_self)
  · exact .inr hkept

/-- Only a reset replaces OUT without a pulse (R171). -/
theorem step_pulsedOrOutKept {s t : State} (hstep : step s = .next t) (hs : s.NoReset) : s.PulsedOrOutKept t := by
  refine step_keeps (P := s.PulsedOrOutKept) hstep (.inr (.refl s)) ?_ ?_ ?_ ?_
  · exact fun u ins n h => h.trans (.inr ⟨rfl, rfl, rfl, rfl⟩)
  · exact fun u h => h.trans (.inr ⟨rfl, rfl, rfl, pulses_of_response rfl⟩)
  · exact fun i u v _ h hx => h.trans (exec_pulsedOrOutKept hx)
  · intro p rest hin hrst
    cases hrst.symm.trans (hs p (hin ▸ List.mem_cons_self))

/-- The steps of a run that presents no reset, taken together. -/
theorem run_pulsedOrOutKept {k : Nat} {s t : State} (hrun : run k s = .next t) (hs : s.NoReset) :
    s.PulsedOrOutKept t :=
  (run_keeps (P := fun u => u.NoReset ∧ s.PulsedOrOutKept u)
    (fun _ _ hstep ⟨hu, h⟩ => ⟨step_keeps_noReset hstep hu, h.trans (step_pulsedOrOutKept hstep hu)⟩)
    k s t hrun ⟨hs, .inr (.refl s)⟩).2

/-- Settles O23: without a pulse the run has kept OUT, and PULL answers with OUT alone. -/
theorem pullsBetweenCommitsAreIdentical : Obligations.PullsBetweenCommitsAreIdentical := by
  intro k s t hs hrun hpulses
  have hkept : s.OutKept t := (run_pulsedOrOutKept hrun hs).outKept hpulses
  exact ⟨s.pullResponse, exec_pull s, hkept.pullResponse_eq ▸ exec_pull t⟩

/-- Settles O31: the TICK that fills the buffer is the one operation that does not keep OUT. -/
theorem pulsesAreExactlyTheCommits : Obligations.PulsesAreExactlyTheCommits := by
  intro i s t hx
  refine ⟨?_, fun hother => ?_⟩
  · rintro ⟨rfl, hh, hlast⟩
    rcases execTick_cases hx with ⟨hhalted, -⟩ | ⟨-, hslot, rfl⟩
    · cases hh.symm.trans hhalted
    · exact tickSteps_commit_pulses (hslot.fills_iff.2 hlast)
  · rcases exec_commits_or_keeps_out hx with ⟨hi, hh, hlast, -⟩ | hkept
    · exact absurd ⟨hi, hh, hlast⟩ hother
    · exact ⟨hkept.pulses, hkept.outBuf, hkept.outLen⟩

/-- Settles O18: the payload is OUT read over the offsets below `outLen`. -/
theorem pullReturnsTheCommittedBuffer : Obligations.PullReturnsTheCommittedBuffer := by
  intro s
  refine ⟨s.pullResponse.data, exec_pull s, ?_, fun a ha => ?_⟩
  · rw [State.pullResponse, List.length_map, List.length_range]
  · rw [State.pullResponse, List.getElem?_map, List.getElem?_range ha, Option.map_some]

end Sys2Proof.Machine
end

section
/-! PROOFS. The reset step (60_exceptions.md R155, R159, 70_reset_and_hazards.md R170, R171): what it is performed as,
and the registers it leaves. -/

namespace Sys2Proof.Machine

theorem performReset_zero (s : State) : performReset 0#32 s = .refused .sampleRateZero := if_pos rfl

theorem performReset_nonzero {strap : Word} (h : strap ≠ 0#32) (s : State) :
    performReset strap s = .next (resetRegisters strap s) := if_neg h

/-- An active `rst` is the step, whatever command or strobe stands beside it (R155, R170). -/
theorem step_reset {s : State} {p : PortInput} {rest : List PortInput} (hin : s.inputs = p :: rest)
    (hrst : p.rst = true) : step s = performReset p.sampleRate { s with inputs := rest } := by
  simp [step, nextAction, hin, hrst]

/-- A legal default size is what its register holds, read unsigned as `fillSize` and signed as `bufferSize`. -/
theorem LegalConfig.bufszDefault_register {c : Config} (hc : LegalConfig c) :
    (BitVec.ofNat 32 c.bufszDefault).toNat = c.bufszDefault ∧
      (BitVec.ofNat 32 c.bufszDefault).toInt = c.bufszDefault := by
  have ⟨_, _, _, hlegal⟩ := hc
  have hint : (BitVec.ofNat 32 c.bufszDefault).toInt = c.bufszDefault := by
    rw [← BitVec.ofInt_natCast]
    exact toInt_ofInt_of_legalSize hc hlegal
  refine ⟨?_, hint⟩
  obtain ⟨-, hsame, -⟩ := legalSize_toNat c.bufMaxBytes _ (hint.symm ▸ hlegal)
  exact_mod_cast hsame.symm.trans hint

/-- Settles O11: the reset is what is performed, and with the strap at 0 it is refused. -/
theorem zeroStrapIsRefused : Obligations.ZeroStrapIsRefused := by
  intro s p rest hin hrst hstrap
  rw [step_reset hin hrst, hstrap, performReset_zero]

/-- Settles O10: the reset is what is performed, and the registers it leaves are those of the reset state, the default
size fitting both size registers. -/
theorem resetOverridesAndSetsEveryRegister : Obligations.ResetOverridesAndSetsEveryRegister := by
  intro s p rest hin hrst hstrap hc
  obtain ⟨hsize, hsigned⟩ := LegalConfig.bufszDefault_register hc
  refine ⟨_, (step_reset hin hrst).trans (performReset_nonzero hstrap _), ?_⟩
  exact ⟨rfl, samplePeriodOf_toNat _, rfl, rfl, rfl, rfl, rfl, rfl, hsigned, hsize, rfl, rfl, rfl, rfl, rfl, rfl, rfl,
    Nat.lt_irrefl 0, (absurd rfl ·), rfl, rfl, rfl⟩

end Sys2Proof.Machine
end

section
/-! PROOFS. The one synchronous error (60_exceptions.md R150, R152): what raises it, and that it changes nothing; and
that under the invariant nothing stops the machine (R153). -/

namespace Sys2Proof.Machine

/-- The two causes of InvalidParameter (R150). -/
def Rejected : Instr → State → Prop
  | .setv level, _ => 1023 < level
  | .setb _, s => s.bufferSizeCorrupt
  | _, _ => False

theorem rejected_iff (i : Instr) (s : State) :
    Rejected i s ↔
      (∃ level, i = .setv level ∧ 1023 < level) ∨ ∃ bytes, i = .setb bytes ∧ s.bufferSize.toInt ≤ 0 := by
  cases i <;> simp [Rejected]

/-- A command is answered with `ST_OK`, or, for one of the two causes, the error is raised. -/
theorem exec_command_accepts_or_raises {i : Instr} (s : State) (hi : i ≠ .tick) :
    (¬ Rejected i s ∧ ∃ t r, exec i s = .next t ∧ t.outputs = s.outputs ++ [.response r] ∧ r.status = .ok) ∨
    (Rejected i s ∧ exec i s = .next (raiseInvalidParameter s)) := by
  cases i with
  | setf hz => exact .inl ⟨id, _, _, rfl, rfl, rfl⟩
  | setfd hz ms => exact .inl ⟨id, _, _, rfl, rfl, rfl⟩
  | setv level =>
    by_cases hl : LevelAccepted level
    · exact .inl ⟨Nat.not_lt.2 hl, _, _, exec_setv_accepted hl s, rfl, rfl⟩
    · exact .inr ⟨Nat.not_le.1 hl, exec_setv_rejected hl s⟩
  | setb bytes =>
    by_cases hc : s.bufferSizeCorrupt
    · exact .inr ⟨hc, exec_setb_corrupt hc bytes⟩
    · exact .inl ⟨hc, _, _, exec_setb_stores hc bytes, rfl, rfl⟩
  | pull => exact .inl ⟨id, _, _, exec_pull s, rfl, rfl⟩
  | tick => exact absurd rfl hi

/-- TICK shows nothing or one pulse (R141). -/
theorem execTick_outputs {s t : State} (h : execTick s = .next t) :
    t.outputs = s.outputs ∨ t.outputs = s.outputs ++ [.pullReq] := by
  rcases execTick_cases h with ⟨-, rfl⟩ | ⟨-, -, rfl⟩
  · exact .inl rfl
  · by_cases hfull : s.fillIndex + 2#32 = s.fillSize
    · obtain ⟨-, -, -, -, houts, -⟩ := tickSteps_commit hfull
      exact .inr houts
    · obtain ⟨-, -, -, -, -, -, houts, -⟩ := tickSteps_store hfull
      exact .inl houts

/-- So TICK never shows a response (R67). -/
theorem execTick_no_response {s t : State} (h : execTick s = .next t) (r : Response) :
    t.outputs ≠ s.outputs ++ [.response r] := by
  rcases execTick_outputs h with houts | houts <;> simp [houts]

/-- Settles O21: a raised error answers with its status and does no more; any other command answers `ST_OK`. -/
theorem invalidParameterHasExactlyTwoCauses : Obligations.InvalidParameterHasExactlyTwoCauses := by
  refine ⟨rfl, fun i s hi => ?_⟩
  simp only [← rejected_iff]
  rcases exec_command_accepts_or_raises s hi with ⟨hnot, t, r, hx, houts, hok⟩ | ⟨hcause, hx⟩
  · have hstatus : r.status ≠ .invalidParameter := by rw [hok]; exact nofun
    exact ⟨t, r, hx, houts, iff_of_false hstatus hnot, (absurd · hstatus)⟩
  · exact ⟨_, _, hx, rfl, iff_of_true rfl hcause, fun _ => rfl⟩

/-- Settles O22: the response not being `ST_OK`, the instruction is no TICK and the error was raised. -/
theorem rejectedCommandsChangeNothing : Obligations.RejectedCommandsChangeNothing := by
  intro i s t r hx houts hstatus
  by_cases hi : i = .tick
  · subst hi
    exact absurd houts (execTick_no_response hx r)
  rcases exec_command_accepts_or_raises s hi with ⟨-, u, q, hu, hq, hok⟩ | ⟨-, hu⟩
  · cases hu.symm.trans hx
    have hqr : q = r := by simpa using hq.symm.trans houts
    exact absurd (hqr ▸ hok) hstatus
  · cases hu.symm.trans hx
    rw [← houts]
    rfl

/-- Settles O47: a reset with a nonzero strap completes in every state, and under the invariant every operation does. -/
theorem noStepFaultsUnderTheInvariant : Obligations.NoStepFaultsUnderTheInvariant := by
  intro s hinv hstrap
  by_cases hreset : ∃ p rest, s.inputs = p :: rest ∧ p.rst = true
  · obtain ⟨p, rest, hin, hrst⟩ := hreset
    exact ⟨_, (step_reset hin hrst).trans (performReset_nonzero (hstrap p rest hin hrst) _)⟩
  · have hnone : ∀ p rest, s.inputs = p :: rest → p.rst = false := fun p rest hin =>
      Bool.eq_false_iff.2 fun hrst => hreset ⟨p, rest, hin, hrst⟩
    refine step_next hnone fun i ins n => State.Inv.exec_next ?_ i
    exact hinv.frame s.amplitude s.bufferSize ins s.outputs n s.bufGen

end Sys2Proof.Machine
end

section
/-! PROOFS. A stored size of at most 0 (70_reset_and_hazards.md R185): nothing but a reset writes it. -/

namespace Sys2Proof.Machine

/-- No operation writes a stored size that is not positive: SETB, the only writer, is rejected (R83). -/
theorem exec_keeps_corrupt_size {i : Instr} {s t : State} (h : s.bufferSizeCorrupt) (hx : exec i s = .next t) :
    t.bufferSize = s.bufferSize := by
  rcases exec_cases hx with ⟨_, _, _, -, rfl⟩ | ⟨_, _, _, -, rfl⟩ | ⟨bytes, _, _, rfl, -⟩ | ⟨_, -, rfl⟩ | ⟨-, htick⟩
  · rfl
  · rfl
  · cases (exec_setb_corrupt h bytes).symm.trans hx
    rfl
  · rfl
  · rcases execTick_cases htick with ⟨-, rfl⟩ | ⟨-, -, rfl⟩
    · rfl
    · exact tickSteps_bufferSize s

/-- So no step without a reset does. -/
theorem step_keeps_corrupt_size {s t : State} (h : s.bufferSizeCorrupt) (hs : s.NoReset) (hstep : step s = .next t) :
    t.bufferSize = s.bufferSize := by
  refine step_keeps (P := fun u => u.bufferSize = s.bufferSize) hstep rfl ?_ ?_ ?_ ?_
  · exact fun _ _ _ hu => hu
  · exact fun _ hu => hu
  · intro i u v _ hu hx
    have hcorrupt : u.bufferSizeCorrupt := by rwa [State.bufferSizeCorrupt, hu]
    exact (exec_keeps_corrupt_size hcorrupt hx).trans hu
  · intro p rest hin hrst
    cases hrst.symm.trans (hs p (hin ▸ List.mem_cons_self))

/-- A Commit with an illegal size configured halts (R106). -/
theorem tickSteps_commit_halts {s : State} (hfull : s.fillIndex + 2#32 = s.fillSize)
    (hillegal : ¬ LegalSize s.cfg.bufMaxBytes s.bufferSize.toInt) : (tickSteps s).halted = true := by
  obtain ⟨-, -, -, -, -, -, -, hhalt⟩ := tickSteps_commit hfull
  rw [hhalt, if_neg hillegal]

/-- Settles O44: the size is kept along the run, and a size of at most 0 is one that SETB rejects and no Commit can
allocate. -/
theorem corruptBufferSizeIsAOneWayTrap : Obligations.CorruptBufferSizeIsAOneWayTrap := by
  intro k s t hcorrupt hs hrun
  obtain ⟨-, hsize⟩ : t.NoReset ∧ t.bufferSize = s.bufferSize := by
    refine run_keeps (P := fun u => u.NoReset ∧ u.bufferSize = s.bufferSize) ?_ k s t hrun ⟨hs, rfl⟩
    intro u v hstep ⟨hu, hsize⟩
    have hcorrupt' : u.bufferSizeCorrupt := by rwa [State.bufferSizeCorrupt, hsize]
    exact ⟨step_keeps_noReset hstep hu, (step_keeps_corrupt_size hcorrupt' hu hstep).trans hsize⟩
  have hcorrupt' : t.bufferSizeCorrupt := by rwa [State.bufferSizeCorrupt, hsize]
  refine ⟨hsize, exec_setb_corrupt hcorrupt', fun hcan hlast => ⟨_, hcan.exec_tick, ?_⟩⟩
  refine tickSteps_commit_halts (hcan.2.fills_iff.2 hlast) fun hlegal => ?_
  have hpos := hlegal.1
  omega

end Sys2Proof.Machine
end

section
/-! PROOFS. The strap without a reset (70_reset_and_hazards.md R172): the step neither reads it nor writes the rate. -/

namespace Sys2Proof.Machine

/-- The instant with its strap left out of account. -/
def PortInput.withoutStrap (p : PortInput) : PortInput := { p with sampleRate := 0#32 }

/-- What is presented is performed alike beside another queue, which it leaves as it is. -/
theorem performFetched_withQueue {f : Fetched} {s t : State} (ins : List PortInput) (n : Nat)
    (h : performFetched f s = .next t) : performFetched f (s.withQueue ins n) = .next (t.withQueue ins n) := by
  rw [performFetched] at h ⊢
  split at h
  · exact exec_withQueue ins n h
  · cases h
    rfl
  · cases h
    rfl

/-- Nothing that is performed changes the queue or the count: performed beside the queue that stands there it must
answer the same state. -/
theorem performFetched_keeps_queue {f : Fetched} {s t : State} (h : performFetched f s = .next t) :
    t = t.withQueue s.inputs s.arbCount := by
  have hsame := performFetched_withQueue s.inputs s.arbCount h
  exact Host.Outcome.next.inj (h.symm.trans hsame)

theorem performFetched_keeps_rate {f : Fetched} {s t : State} (h : performFetched f s = .next t) :
    t.sampleRate = s.sampleRate ∧ t.samplePeriodNs = s.samplePeriodNs := by
  rcases performFetched_cases h with ⟨i, -, hx⟩ | rfl | rfl
  · exact (exec_keeps_rate hx).2
  · exact ⟨rfl, rfl⟩
  · exact ⟨rfl, rfl⟩

/-- Without a reset the strap beside what is presented neither selects what the step performs nor what stays presented;
an instant that presents nothing is the inactive strobe (R69). -/
theorem step_whatever_strap (s : State) {p : PortInput} (rest : List PortInput) (hrst : p.rst = false) :
    ∃ f n kept, ∀ strap, ∃ ins, ins.map PortInput.withoutStrap = kept ∧
      step { s with inputs := { p with sampleRate := strap } :: rest } = performFetched f (s.withQueue ins n) := by
  obtain ⟨_, _, en, cmd⟩ := p
  cases hrst
  cases cmd with
  | none =>
    cases en with
    | false => exact ⟨.strobe 0#1, s.arbCount, _, fun _ => ⟨rest, rfl, step_nothingPresented rfl rfl rfl rfl⟩⟩
    | true => exact ⟨.strobe 1#1, s.arbCount, _, fun _ => ⟨rest, rfl, step_onlyStrobe rfl ⟨rfl, rfl, rfl⟩⟩⟩
  | some w =>
    cases en with
    | false => exact ⟨.command w, s.arbCount, _, fun _ => ⟨rest, rfl, step_onlyCommand rfl ⟨rfl, rfl, rfl⟩⟩⟩
    | true =>
      cases hfirst : tickGoesFirst s with
      | true =>
        exact ⟨.strobe 1#1, arbCountAfter s, ({ cmd := some w } :: rest).map PortInput.withoutStrap, fun strap =>
          ⟨{ sampleRate := strap, cmd := some w } :: rest, rfl,
            step_together_tick (p := ⟨false, strap, true, some w⟩) rfl ⟨rfl, rfl, rfl⟩ hfirst⟩⟩
      | false =>
        exact ⟨.command w, arbCountAfter s, ({ sampleEn := true } :: rest).map PortInput.withoutStrap, fun strap =>
          ⟨{ sampleRate := strap, sampleEn := true } :: rest, rfl,
            step_together_command (p := ⟨false, strap, true, some w⟩) rfl ⟨rfl, rfl, rfl⟩ hfirst⟩⟩

/-- Settles O12: with any strap the same is performed beside queues that differ in straps only, and it leaves the rate
and the queue as they are. -/
theorem strapIsReadOnlyAtReset : Obligations.StrapIsReadOnlyAtReset := by
  intro s t p rest strap hin hrst hstep
  obtain ⟨f, n, kept, hany⟩ := step_whatever_strap s rest hrst
  obtain ⟨ins, hins, hs⟩ := hany p.sampleRate
  obtain ⟨ins', hins', hs'⟩ := hany strap
  have hown : { s with inputs := { p with sampleRate := p.sampleRate } :: rest } = s := by
    show { s with inputs := p :: rest } = s
    rw [← hin]
  rw [hown, hstep] at hs
  obtain ⟨hrate, hperiod⟩ := performFetched_keeps_rate hs.symm
  have hqueue : t = t.withQueue ins n := performFetched_keeps_queue hs.symm
  have hother := performFetched_withQueue ins' n hs.symm
  rw [hqueue] at hother ⊢
  exact ⟨hrate, hperiod, ins', hs'.trans hother, hins'.trans hins.symm⟩

end Sys2Proof.Machine
end

section
/-! PROOFS. A sample period of 0 (70_reset_and_hazards.md R181). -/

namespace Sys2Proof.Machine

/-- With a remainder of at most 1000 and a sample period of 0 the timer counts nothing off, Timed or Indefinite. -/
theorem tickSteps_timer_of_samplePeriod_zero {s : State} (hsp : s.samplePeriodNs = 0#32)
    (hrem : s.playoutSoFarNs.toNat ≤ 1000) :
    (tickSteps s).playoutTimeUs = s.playoutTimeUs ∧ (tickSteps s).playoutSoFarNs = s.playoutSoFarNs ∧
      (tickSteps s).newPeriodNs = s.newPeriodNs := by
  by_cases ht : s.timed
  · have hnone : countdownIterations s.playoutSoFarNs.toNat = 0 := Nat.div_eq_of_lt (by omega)
    obtain ⟨hus, hns, hnew⟩ := tickSteps_timed ht hrem (by rw [hsp]; exact Nat.zero_le _)
    rw [hsp, BitVec.toNat_zero, Nat.add_zero, hnone] at hus hns hnew
    rw [Nat.zero_min, Nat.sub_zero] at hus
    rw [if_neg (Nat.not_le.2 ht)] at hnew
    exact ⟨BitVec.eq_of_toNat_eq hus, BitVec.eq_of_toNat_eq hns, hnew⟩
  · exact tickSteps_indefinite ht

/-- Settles O38: the phase advances by 0, so it stays below the period, and the timer counts nothing off. -/
theorem withoutASamplePeriodNothingAdvances : Obligations.WithoutASamplePeriodNothingAdvances := by
  intro s hcan hsp hpos hrem
  have hadv : s.advancedPhase = s.position.toNat := by
    rw [State.advancedPhase, hsp]
    exact Nat.mod_eq_of_lt s.position.isLt
  obtain ⟨hperiod, hpos'⟩ := tickSteps_advances (s := s) (by rwa [hadv])
  obtain ⟨htime, hrem', hnew⟩ := tickSteps_timer_of_samplePeriod_zero hsp hrem
  exact ⟨_, hcan.exec_tick, BitVec.eq_of_toNat_eq (hpos'.trans hadv), hperiod, hnew, htime, hrem'⟩

end Sys2Proof.Machine
end

section
/-! PROOFS. The machine that is given no command after reset (70_reset_and_hazards.md R173): the zeros it stores,
counted. -/

namespace Sys2Proof.Machine

/-- The state after `n` TICKs that filled and committed buffers of `size` bytes with zeros, no command among them: the
bytes stored are those of the buffers pulsed and those in FILL. -/
structure State.CommittedZeros (size : Word) (n : Nat) (t : State) : Prop where
  inv : t.Inv
  halted : t.halted = false
  legal : LegalSize t.cfg.bufMaxBytes size.toInt
  bufferSize : t.bufferSize = size
  fillSize : t.fillSize = size
  silence : t.SilentWithZeros
  indefinite : t.playoutTimeUs = 0#42
  stored : t.pulses * size.toNat + t.fillIndex.toNat = 2 * n
  outLen : t.outLen.toNat = if t.pulses = 0 then 0 else size.toNat

/-- Right after reset nothing is stored. -/
theorem resetOf_committedZeros {cfg : Config} {strap : Word} (hc : LegalConfig cfg) (h0 : strap ≠ 0#32) :
    (State.resetOf cfg strap).CommittedZeros (BitVec.ofNat 32 cfg.bufszDefault) 0 where
  inv := resetMeetsTheInvariant cfg strap hc h0
  halted := rfl
  legal := by
    have ⟨_, _, _, hlegal⟩ := hc
    rwa [(LegalConfig.bufszDefault_register hc).2]
  bufferSize := rfl
  fillSize := rfl
  silence := ⟨rfl, rfl, nofun, nofun⟩
  indefinite := rfl
  stored := Nat.zero_mul _
  outLen := rfl

/-- Another TICK stores two bytes more, and commits a buffer where they are its last ones. -/
theorem State.CommittedZeros.tick {size : Word} {n : Nat} {t : State} (h : t.CommittedZeros size n) :
    ∃ u, exec .tick t = .next u ∧ u.CommittedZeros size (n + 1) := by
  obtain ⟨hinv, hh, hlegal, rfl, hfillSize, hsilence, htime, hstored, hlen⟩ := h
  have hcan := hinv.canTick hh
  have hbytes : (tickSteps t).pulses * t.bufferSize.toNat + (tickSteps t).fillIndex.toNat = 2 * (n + 1) ∧
      (tickSteps t).fillSize = t.bufferSize ∧
      (tickSteps t).outLen.toNat = if (tickSteps t).pulses = 0 then 0 else t.bufferSize.toNat := by
    by_cases hfull : t.fillIndex + 2#32 = t.fillSize
    · obtain ⟨hidx, -, -, hlen', -, -, hsize', -⟩ := tickSteps_commit hfull
      have hlast := hcan.2.fills_iff.1 hfull
      rw [hfillSize] at hlast hlen'
      rw [tickSteps_commit_pulses hfull, hidx, hsize', if_pos hlegal, hlen', Nat.add_one_mul, BitVec.toNat_zero,
        if_neg (Nat.succ_ne_zero _)]
      exact ⟨by omega, rfl, rfl⟩
    · obtain ⟨hidx, -, hsize', -, hlen', -, -, -⟩ := tickSteps_store hfull
      rw [(tickSteps_keeps_out hfull).pulses, hidx, hsize', hcan.2.next_toNat, hlen']
      exact ⟨by omega, hfillSize, hlen⟩
  obtain ⟨hstored', hsize', hlen'⟩ := hbytes
  exact ⟨_, hcan.exec_tick,
    { inv := tickSteps_keeps_inv hinv hh hcan.2
      halted := tickSteps_not_halted hh hlegal
      legal := by rwa [tickSteps_cfg]
      bufferSize := tickSteps_bufferSize t
      fillSize := hsize'
      silence := tickSteps_keeps_silence hcan hinv.written hsilence
      indefinite := (tickSteps_indefinite (mt t.timed_iff.1 (not_not.2 htime))).1.trans htime
      stored := hstored'
      outLen := hlen' }⟩

/-- The whole buffers and the rest of one, as quotient and remainder of the TICKs by the slots of a buffer. -/
theorem State.CommittedZeros.pulses_fillIndex {size : Word} {n : Nat} {t : State} (h : t.CommittedZeros size n) :
    t.pulses = n / (size.toNat / 2) ∧ t.fillIndex.toNat = 2 * (n % (size.toNat / 2)) := by
  obtain ⟨heven, hfilling, -, -⟩ := h.inv.shape
  obtain ⟨⟨-, hsizeEven, -⟩, hlt⟩ := hfilling h.halted
  rw [h.fillSize] at hsizeEven hlt
  obtain ⟨slots, hslots⟩ : ∃ slots, size.toNat = 2 * slots := ⟨size.toNat / 2, by omega⟩
  obtain ⟨slot, hslot⟩ : ∃ slot, t.fillIndex.toNat = 2 * slot := ⟨t.fillIndex.toNat / 2, by omega⟩
  have hstored := h.stored
  rw [hslots, hslot, Nat.mul_left_comm] at hstored
  have hdivmod := (Nat.div_mod_unique (a := n) (b := slots) (c := slot) (d := t.pulses) (by omega)).2
    ⟨by rw [Nat.mul_comm slots]; omega, by omega⟩
  rw [hslots, Nat.mul_div_cancel_left _ (by decide), hdivmod.1, hdivmod.2]
  exact ⟨rfl, hslot⟩

/-- Settles O42: each of the `n` TICKs after reset carries the zeros on. -/
theorem silentMachineKeepsCommittingZeros : Obligations.SilentMachineKeepsCommittingZeros := by
  intro cfg strap n hc h0
  obtain ⟨t, ht, hzeros⟩ := ticks_reach (P := State.CommittedZeros (BitVec.ofNat 32 cfg.bufszDefault))
    (resetOf_committedZeros hc h0) (fun _ _ _ h => h.tick) n le_rfl
  have hsize := (LegalConfig.bufszDefault_register hc).1
  obtain ⟨hpulses, hidx⟩ := hzeros.pulses_fillIndex
  have hlen := hzeros.outLen
  obtain ⟨hsilent, -, -, hout⟩ := hzeros.silence
  rw [hsize] at hpulses hidx hlen
  refine ⟨t, ht, hsilent, rampSample_of_silent hsilent, hzeros.indefinite, hpulses, hidx, ?_,
    fun a ha => Memory.AllZero.byteAt hout hzeros.inv.written.2 ha _⟩
  have hfirst : t.pulses = 0 ↔ n < cfg.bufszDefault / 2 := by
    obtain ⟨-, -, -, hlegal⟩ := hc
    rw [hpulses, Nat.div_eq_zero_iff_lt (by omega)]
  simpa only [hfirst] using hlen

end Sys2Proof.Machine
end
